-- ==== Sys2Proof/Word.lean ====
section
/-! DEFINITION. The plain types of the device: bytes, and the identifiers of section 4.2 of the introduction. -/

namespace Sys2Proof

/-- One byte of a frame. -/
abbrev Byte := BitVec 8

/-- A two-byte value of a frame. -/
abbrev Half := BitVec 16

/-- Zones are numbered 0 to 15. -/
abbrev Zone := Fin 16

/-- Valve channels are numbered 0 to 23. -/
abbrev Channel := Fin 24

/-- Room unit registry records are indexed 0 to 31. -/
abbrev UnitIx := Fin 32

/-- Drive slots are numbered 0 to 2 (R143). -/
abbrev Slot := Fin 3

/-- The 17 edit claims: a zone claim for each zone, and 16 for the configuration claim (R63, R200). -/
abbrev ClaimIx := Fin 17

end Sys2Proof
end

