-- ==== Sys2Proof/Config.lean ====
section
/-! DEFINITION. What is fixed for the device (constants of the spec), and the free values: constants
with no body for what the spec leaves open. Nothing can be proved about a free value. -/

namespace Sys2Proof.Config

/-- Periods of the 32.768 kHz crystal in one second (02 R23, electrical summary). -/
def hz : Nat := 32768

/-- Records of the point pool (02 R31). -/
def poolSize : Nat := 512

/-- Most points on one zone list (02 R31). -/
def listMax : Nat := 64

/-- Most notices in a port's queue (10 R183). -/
def noticeMax : Nat := 32

/-- Most frames in the outbound queue (06 R103). -/
def outboundMax : Nat := 8

/-- Most slots of the receive queue (07 R114). -/
def receiveMax : Nat := 16

/-- Most entries in a channel's command queue (08 R139). -/
def commandMax : Nat := 8

/-- The attempt at which a frame is dropped (06 R111). -/
def attemptsMax : Nat := 8

/-- Values of a reply for which R200 gives no code of "none" or "absent" in one byte. -/
inductive Uncoded where
  | listPosition      -- READ_ZONE, a zone off the heat call list (R3)
  | currentIndex      -- SCHEDULE_READ, no current point (R42)
  | humidity          -- UNIT_READ, last_humidity absent (R124)
  | position          -- VALVE_READ, position unknown (R156)
  | role              -- UNIT_READ, role none (R119)
  | listPlace         -- VALVE_READ, not on the slot waiting list (R156)
  | replyKind         -- a reply or a fault record with kind none (R186, R193)
deriving DecidableEq, Repr

/-- FREE VALUE (log 11): the byte sent for a none or absent value that R200 gives no code for. -/
opaque uncoded : Uncoded → BitVec 8

/-- FREE VALUE (log 11): the two bytes READ_CONFIG sends for a running open_timer of so many quarter
seconds, where they are not whole seconds. R88 asks for the elapsed time, which goes in steps of 0.25 s; R200 gives no code for a part of a
second. -/
opaque openTimerCode : Nat → BitVec 16

/-- FREE VALUE (log 32): the two bytes sent for a duration of more than 65535 seconds. R200 sends the seconds of a
duration as their number in two bytes and says nothing of a number that they do not hold. -/
opaque longDuration : Nat → BitVec 16

/-- FREE VALUE (log 10): whether a duration of so many crystal periods that is no whole number of
seconds is reported rounded up (R156, R181 ask for seconds and give no rounding). -/
opaque partSecondUp : Nat → Bool

/-- FREE VALUE (log 8): for the n-th evaluation of the Demand Unit, whether the Firing Controller takes
the start of a frost emergency before the call update of the same evaluation. R170: it "may take the two
in either order". -/
opaque frostFirst : Nat → Bool

end Sys2Proof.Config
end

