-- ==== Sys2Proof/Syntax.lean ====
section
/-! DEFINITION. The commands: one constructor of Instr for each row of opcode_table.json, with its
operands. The 29 host requests carry the fields of their bodies as raw values, at the widths R200 gives,
so that every value a host can send reaches the block that judges it. -/

namespace Sys2Proof

/-- The host ports (00 section 4.2). -/
inductive Port where
  | A | B
deriving DecidableEq, Repr

/-- One item of CONFIGURE: parameter number, contact number (0xFF for device parameters), value (R201). -/
structure ConfigItem where
  param : Byte
  contact : Byte
  value : Half
deriving DecidableEq, Repr

/-- One entry of VALVE_SERVICE: entry kind (MOVE_TO 0, DWELL 1, SEEK_CLOSED 2, MARK 3) and its value (R201). -/
structure ServiceEntry where
  kind : Byte
  value : Byte
deriving DecidableEq, Repr

/-- One entry of NOTICE_MASK: kind number, and 1 for enabled or 0 for disabled (R192, R200). -/
structure MaskEntry where
  kind : Byte
  enabled : Byte
deriving DecidableEq, Repr

/-- A host request: the kind with the fields of its body, in the order of the request's heading (R201).
Counts are the lengths of the lists. -/
inductive HostReq where
  | identify
  | readZone (zone : Byte)
  | setZone (zone mode : Byte) (target : Half) (primary : Byte)
  | scheduleInsert (zone : Byte) (minute : Half) (kind : Byte) (target : Half)
  | scheduleDelete (zone : Byte) (minute : Half)
  | scheduleLoad (zone : Byte) (points : List (BitVec 24))
  | scheduleRead (zone start : Byte)
  | claim (target : Byte)
  | release (target : Byte)
  | pushHold (zone : Byte) (target : Half) (locked holdEnd : Byte) (minutes : Half)
  | cancelHold (zone : Byte)
  | cancelBoost (zone : Byte)
  | setTime (minute : Half) (seconds : Byte)
  | releaseTime
  | readTime
  | configure (items : List ConfigItem)
  | readConfig
  | unitAdmit (index zone role : Byte)
  | unitRemove (index : Byte)
  | unitRead (index : Byte)
  | valveAssign (channel zone : Byte) (fullStroke : Half) (minPos maxPos : Byte)
  | valveService (channel : Byte) (entries : List ServiceEntry)
  | valveClear (channel : Byte)
  | valveRead (channel : Byte)
  | firingRead
  | clearLockout
  | noticeMask (entries : List MaskEntry) (purge : Byte)
  | faultRead (clear : Byte)
  | portReset
deriving DecidableEq, Repr

/-- A transaction whose transaction byte is neither REQUEST nor FETCH: its port and that byte (R184). -/
structure VoidTransaction where
  port : Port
  first : Byte
deriving DecidableEq, Repr

/-- Which wire a stuck bus holds low (R101). -/
inductive HeldWire where
  | clock | data | both
deriving DecidableEq, Repr

/-- Which of the part's two sources of frames (R103, R106). -/
inductive Source where
  | control | outbound
deriving DecidableEq, Repr

/-- A byte of the burner link as it arrives after its start bit: the eight data bits in the order of their arrival, and
whether its stop bit was read low (R202). -/
structure LinkByte where
  data : Vector Bool 8
  stopLow : Bool
deriving DecidableEq, Repr

/-- The body and check byte of a complete STATUS frame, as received (section 11.5). -/
structure StatusBytes where
  flame : Byte
  lockout : Byte
  flow : Byte
  ret : Byte
  faultCode : Byte
  crc : Byte
deriving DecidableEq, Repr

/-- The commands: one constructor per row of opcode_table.json, in the table's order. -/
inductive Instr where
  | deviceReset
  | voidTransaction (v : VoidTransaction)
  | badFrame (p : Port) (bytes : List Byte)
  | fetch (p : Port)
  | fetchTransactionEnd (p : Port) (headerWhole : Bool)
  | identify (p : Port)
  | readZone (p : Port) (zone : Byte)
  | setZone (p : Port) (zone mode : Byte) (target : Half) (primary : Byte)
  | scheduleInsert (p : Port) (zone : Byte) (minute : Half) (kind : Byte) (target : Half)
  | scheduleDelete (p : Port) (zone : Byte) (minute : Half)
  | scheduleLoad (p : Port) (zone : Byte) (points : List (BitVec 24))
  | scheduleRead (p : Port) (zone start : Byte)
  | claim (p : Port) (target : Byte)
  | release (p : Port) (target : Byte)
  | pushHold (p : Port) (zone : Byte) (target : Half) (locked holdEnd : Byte) (minutes : Half)
  | cancelHold (p : Port) (zone : Byte)
  | cancelBoost (p : Port) (zone : Byte)
  | setTime (p : Port) (minute : Half) (seconds : Byte)
  | releaseTime (p : Port)
  | readTime (p : Port)
  | configure (p : Port) (items : List ConfigItem)
  | readConfig (p : Port)
  | unitAdmit (p : Port) (index zone role : Byte)
  | unitRemove (p : Port) (index : Byte)
  | unitRead (p : Port) (index : Byte)
  | valveAssign (p : Port) (channel zone : Byte) (fullStroke : Half) (minPos maxPos : Byte)
  | valveService (p : Port) (channel : Byte) (entries : List ServiceEntry)
  | valveClear (p : Port) (channel : Byte)
  | valveRead (p : Port) (channel : Byte)
  | firingRead (p : Port)
  | clearLockout (p : Port)
  | noticeMask (p : Port) (entries : List MaskEntry) (purge : Byte)
  | faultRead (p : Port) (clear : Byte)
  | portReset (p : Port)
  | storeRequestComplete
  | servedRecomputation
  | secondEvent
  | minuteEvent
  | claimLapse (claim : ClaimIx)
  | overrideCountExpiry (zone : Zone)
  | loopEvent
  | zoneEvent (zone : Zone)
  | sampleEvent (levels : BitVec 16)
  | windowDelayExpiry (input : Zone) (levels : BitVec 16)
  | busFree
  | destReservation (dest : Byte)
  | frameReceived (crc : Byte)
  | shortFrame (repeatedStart : Bool)
  | busError (start : Bool) (carried : Nat)
  | stuckBus (held : HeldWire)
  | busWiresHigh
  | recoveryInterrupted
  | sync (readbackGood : Bool)
  | syncComplete
  | attemptStart
  | deferralTimeout
  | arbitrationLoss (carried : Nat)
  | attemptSuccess
  | attemptFailure
  | backoffEnd (source : Source)
  | tempRecord
  | joinRecord
  | boostRecord
  | boostCancelRecord
  | unitFreshnessAging (index : UnitIx)
  | movementCompletion (channel : Channel)
  | seekClosedTimeout (channel : Channel)
  | dwellEnd (channel : Channel)
  | stall (slot : Slot)
  | exchange
  | byteGapTimeout
  | status (frame : StatusBytes)
  | miss
  | runoutTimerExpiry
  | minOffElapsed
  | lockoutPumpTimerExpiry
  | startSeen
  | stopSeen
  | receivedByte (b : Byte)
  | demandSent
  | frameAbandoned (byte : LinkByte)
  | discardedFrame (frame : StatusBytes)
deriving DecidableEq, Repr

end Sys2Proof
end

