-- ==== Sys2Proof/WellFormed.lean ====
section
/-! DEFINITION. Which commands can be sent at all: a request body is at most 255 bytes (R201), a room bus
frame at most fifteen (R93), and the transaction byte of a port says which transaction it begins (R184, R201). -/

namespace Sys2Proof

/-- The body fits the one-byte length of a REQUEST frame (R185, R201). -/
def HostReq.fits : HostReq → Bool
  | .scheduleLoad _ points => 2 + 3 * points.length ≤ 255
  | .configure items => 1 + 4 * items.length ≤ 255
  | .valveService _ entries => 2 + 2 * entries.length ≤ 255
  | .noticeMask entries _ => 2 + 2 * entries.length ≤ 255
  | _ => true

/-- The transaction bytes of R201. -/
def requestByte : Byte := 0xA1

def fetchByte : Byte := 0xA2

/-- A command the outside can send. -/
def Instr.wellFormed : Instr → Bool
  | .voidTransaction v => v.first ≠ requestByte ∧ v.first ≠ fetchByte
  | .badFrame _ bytes => bytes.head? = some requestByte
  | .scheduleLoad _ zone points => (HostReq.scheduleLoad zone points).fits
  | .configure _ items => (HostReq.configure items).fits
  | .valveService _ channel entries => (HostReq.valveService channel entries).fits
  | .noticeMask _ entries purge => (HostReq.noticeMask entries purge).fits
  | .busError _ carried => carried ≤ 15
  | .arbitrationLoss carried => carried ≤ 14
  | _ => true

end Sys2Proof
end

