-- ==== Sys2Proof/Decode.lean ====
section
/-! DEFINITION. Request frames: the CRC-8 of R93, the bytes of a request body, and the judging of a transaction
and of its REQUEST frame (R184, R185, R200, R201). No row of opcode_table.json gives bits, so decodeTableWord spells no command. -/

namespace Sys2Proof

/-- The command a word spells by the table's bits: the table gives no row any bits (log 26). -/
def decodeTableWord (_nbits _w : Nat) : Option Instr := none

/-! ### CRC-8 (R93) -/

/-- One shift step of R93: towards the most significant bit, combined with 0x07 when a 1 is shifted out. -/
def crcShift (r : Byte) : Byte :=
  if r.getLsbD 7 then (r <<< 1) ^^^ 0x07#8 else r <<< 1

/-- One byte of R93: exclusive-or, then eight shift steps. -/
def crcByte (r b : Byte) : Byte :=
  crcShift (crcShift (crcShift (crcShift (crcShift (crcShift (crcShift (crcShift (r ^^^ b))))))))

/-- The check byte over a list of bytes, from remainder 0 (R93). -/
def crc8 (bytes : List Byte) : Byte := bytes.foldl crcByte 0

/-! ### Multi-byte values, most significant byte first (R200) -/

def be16 (v : Half) : List Byte := [v.extractLsb' 8 8, v.extractLsb' 0 8]

def be24 (v : BitVec 24) : List Byte := [v.extractLsb' 16 8, v.extractLsb' 8 8, v.extractLsb' 0 8]

def be32 (v : BitVec 32) : List Byte :=
  [v.extractLsb' 24 8, v.extractLsb' 16 8, v.extractLsb' 8 8, v.extractLsb' 0 8]

def ofBe16 (hi lo : Byte) : Half := hi ++ lo

def ofBe24 (a b c : Byte) : BitVec 24 := a ++ b ++ c

def ofBe32 (a b c d : Byte) : BitVec 32 := a ++ b ++ c ++ d

/-! ### Request bodies (R200, R201) -/

/-- The request kind's number in the kind byte (R200). -/
def HostReq.kind : HostReq → Byte
  | .identify => 1
  | .readZone .. => 2
  | .setZone .. => 3
  | .scheduleInsert .. => 4
  | .scheduleDelete .. => 5
  | .scheduleLoad .. => 6
  | .scheduleRead .. => 7
  | .claim .. => 8
  | .release .. => 9
  | .pushHold .. => 10
  | .cancelHold .. => 11
  | .cancelBoost .. => 12
  | .setTime .. => 13
  | .releaseTime => 14
  | .readTime => 15
  | .configure .. => 16
  | .readConfig => 17
  | .unitAdmit .. => 18
  | .unitRemove .. => 19
  | .unitRead .. => 20
  | .valveAssign .. => 21
  | .valveService .. => 22
  | .valveClear .. => 23
  | .valveRead .. => 24
  | .firingRead => 25
  | .clearLockout => 26
  | .noticeMask .. => 27
  | .faultRead .. => 28
  | .portReset => 29

/-- The body bytes: the fields in the order of the request's heading (R201). -/
def HostReq.body : HostReq → List Byte
  | .identify => []
  | .readZone zone => [zone]
  | .setZone zone mode target primary => [zone, mode] ++ be16 target ++ [primary]
  | .scheduleInsert zone minute kind target => [zone] ++ be16 minute ++ [kind] ++ be16 target
  | .scheduleDelete zone minute => [zone] ++ be16 minute
  | .scheduleLoad zone points => [zone, BitVec.ofNat 8 points.length] ++ points.flatMap be24
  | .scheduleRead zone start => [zone, start]
  | .claim target => [target]
  | .release target => [target]
  | .pushHold zone target locked holdEnd minutes =>
    [zone] ++ be16 target ++ [locked, holdEnd] ++ be16 minutes
  | .cancelHold zone => [zone]
  | .cancelBoost zone => [zone]
  | .setTime minute seconds => be16 minute ++ [seconds]
  | .releaseTime => []
  | .readTime => []
  | .configure items =>
    [BitVec.ofNat 8 items.length] ++ items.flatMap fun i => [i.param, i.contact] ++ be16 i.value
  | .readConfig => []
  | .unitAdmit index zone role => [index, zone, role]
  | .unitRemove index => [index]
  | .unitRead index => [index]
  | .valveAssign channel zone fullStroke minPos maxPos =>
    [channel, zone] ++ be16 fullStroke ++ [minPos, maxPos]
  | .valveService channel entries =>
    [channel, BitVec.ofNat 8 entries.length] ++ entries.flatMap fun e => [e.kind, e.value]
  | .valveClear channel => [channel]
  | .valveRead channel => [channel]
  | .firingRead => []
  | .clearLockout => []
  | .noticeMask entries purge =>
    [BitVec.ofNat 8 entries.length] ++ (entries.flatMap fun e => [e.kind, e.enabled]) ++ [purge]
  | .faultRead clear => [clear]
  | .portReset => []

/-- The programme points of a SCHEDULE_LOAD body, three bytes each. -/
def parsePoints : List Byte → Option (List (BitVec 24))
  | [] => some []
  | a :: b :: c :: rest => (parsePoints rest).map (ofBe24 a b c :: ·)
  | _ => none

/-- The items of a CONFIGURE body, four bytes each. -/
def parseItems : List Byte → Option (List ConfigItem)
  | [] => some []
  | p :: c :: hi :: lo :: rest => (parseItems rest).map (⟨p, c, ofBe16 hi lo⟩ :: ·)
  | _ => none

/-- The entries of a VALVE_SERVICE body, two bytes each. -/
def parseEntries : List Byte → Option (List ServiceEntry)
  | [] => some []
  | k :: v :: rest => (parseEntries rest).map (⟨k, v⟩ :: ·)
  | _ => none

/-- The entries of a NOTICE_MASK body, two bytes each, and the purge byte that ends it. -/
def parseMask : List Byte → Option (List MaskEntry × Byte)
  | [purge] => some ([], purge)
  | k :: e :: rest => (parseMask rest).map fun r => (⟨k, e⟩ :: r.1, r.2)
  | [] => none

/-- The list a count promises, or none when the body has another size (R185, "body size"). -/
def counted {α : Type} (count : Byte) (l : Option (List α)) : Option (List α) :=
  l.bind fun xs => if xs.length = count.toNat then some xs else none

/-- The request of a kind with a body of its size; none when the size is not that of the kind (R185). -/
def parseBody (kind : Byte) (body : List Byte) : Option HostReq :=
  match kind.toNat, body with
  | 1, [] => some .identify
  | 2, [z] => some (.readZone z)
  | 3, [z, m, t1, t0, u] => some (.setZone z m (ofBe16 t1 t0) u)
  | 4, [z, m1, m0, k, t1, t0] => some (.scheduleInsert z (ofBe16 m1 m0) k (ofBe16 t1 t0))
  | 5, [z, m1, m0] => some (.scheduleDelete z (ofBe16 m1 m0))
  | 6, z :: n :: rest => (counted n (parsePoints rest)).map (.scheduleLoad z)
  | 7, [z, s] => some (.scheduleRead z s)
  | 8, [t] => some (.claim t)
  | 9, [t] => some (.release t)
  | 10, [z, t1, t0, l, e, m1, m0] => some (.pushHold z (ofBe16 t1 t0) l e (ofBe16 m1 m0))
  | 11, [z] => some (.cancelHold z)
  | 12, [z] => some (.cancelBoost z)
  | 13, [m1, m0, s] => some (.setTime (ofBe16 m1 m0) s)
  | 14, [] => some .releaseTime
  | 15, [] => some .readTime
  | 16, n :: rest => (counted n (parseItems rest)).map .configure
  | 17, [] => some .readConfig
  | 18, [i, z, r] => some (.unitAdmit i z r)
  | 19, [i] => some (.unitRemove i)
  | 20, [i] => some (.unitRead i)
  | 21, [c, z, f1, f0, lo, hi] => some (.valveAssign c z (ofBe16 f1 f0) lo hi)
  | 22, c :: n :: rest => (counted n (parseEntries rest)).map (.valveService c)
  | 23, [c] => some (.valveClear c)
  | 24, [c] => some (.valveRead c)
  | 25, [] => some .firingRead
  | 26, [] => some .clearLockout
  | 27, n :: rest =>
    (parseMask rest).bind fun r => if r.1.length = n.toNat then some (.noticeMask r.1 r.2) else none
  | 28, [c] => some (.faultRead c)
  | 29, [] => some .portReset
  | _, _ => none

/-! ### REQUEST frames (R185) -/

/-- How the bytes of a REQUEST transaction after its transaction byte are judged. -/
inductive FrameVerdict where
  | good (r : HostReq)
  | badFrame (kind : Option Byte)    -- a framing check fails; the kind as received, if any
  | unknownKind (kind : Byte)        -- the frame fails only at the kind check
deriving DecidableEq, Repr

/-- The checks of R185 in their order: completeness, length, check byte, kind, body size. -/
def judgeFrame (bytes : List Byte) : FrameVerdict :=
  match bytes with
  | kind :: len :: rest =>
    if rest.isEmpty then .badFrame (some kind)
    else if rest.length ≠ len.toNat + 1 then .badFrame (some kind)
    else
      let body := rest.dropLast
      if rest.getLast? ≠ some (crc8 (kind :: len :: body)) then .badFrame (some kind)
      else if kind.toNat = 0 ∨ kind.toNat > 29 then .unknownKind kind
      else
        match parseBody kind body with
        | some r => .good r
        | none => .badFrame (some kind)
  | [kind] => .badFrame (some kind)
  | [] => .badFrame none

/-- The bytes of a REQUEST transaction: transaction byte, kind, length, body, CRC-8 over kind to body (R201). -/
def HostReq.frame (r : HostReq) : List Byte :=
  let head := r.kind :: BitVec.ofNat 8 r.body.length :: r.body
  requestByte :: (head ++ [crc8 head])

/-- What the bytes clocked in during a transaction make of it (R184). -/
inductive Transaction where
  | nothing                          -- it ends before its transaction byte is complete
  | request (v : FrameVerdict)
  | fetch
  | void
deriving DecidableEq, Repr

/-- A transaction by its transaction byte (R184, R201). -/
def judgeTransaction : List Byte → Transaction
  | [] => .nothing
  | b :: rest =>
    if b = requestByte then .request (judgeFrame rest)
    else if b = fetchByte then .fetch
    else .void

end Sys2Proof
end

