-- ==== Sys2Proof/Machine/State.lean ====
section
/-! DEFINITION. The state of the device, block by block, as plain data, and its value after a device
reset. Each structure's docstring names the rule that lists its fields. -/

namespace Sys2Proof.Machine

/-! ### Clock (02 section 2.1) -/

/-- The Clock (R23, R26) and the crystal it counts. `ticks` are periods of the crystal since device reset;
`secondsTaken` are the second events its takers have been given. -/
structure Clock where
  ticks : Nat
  secondsTaken : Nat
  minute : Nat
  seconds : Nat
  timeValid : Bool
  authority : Option Port
deriving DecidableEq, Repr

/-! ### Configuration (10 section 10.8) -/

inductive Polarity where
  | lowOpen | highOpen
deriving DecidableEq, Repr

/-- The host-set fields of a contact input (R78). -/
structure ContactSettings where
  enable : Bool
  polarity : Polarity
  debounce : Nat
  openEdgeNotice : Bool
  closeEdgeNotice : Bool
  windowDelay : Nat
deriving DecidableEq, Repr

/-- Every parameter of the table of section 10.8; temperatures in tenths of a degree. -/
structure Params where
  frostFloor : Int
  maxTarget : Int
  claimLapse : Nat
  propBand : Nat
  callOn : Nat
  callOff : Nat
  loopPeriod : Nat
  deadband : Nat
  blindOpening : Nat
  servedLimit : Nat
  openThreshold : Nat
  exerciseEnable : Bool
  minFlow : Nat
  maxFlow : Nat
  runoutTime : Nat
  minOff : Nat
  bypassEnable : Bool
  dumpThreshold : Nat
  linkPeriod : Nat
  linkMisses : Nat
  staleAge : Nat
  lostAge : Nat
  plausLow : Int
  plausHigh : Int
  holdoffLevel : Nat
  resumeLevel : Nat
  ownAddress : Byte
  deferralLimit : Nat
  backoffCap : Nat
  contacts : Vector ContactSettings 16
deriving DecidableEq, Repr

/-! ### Zone Table (01 section 1.1) -/

inductive ServiceMode where
  | unused | off | inService
deriving DecidableEq, Repr

inductive BaseSource where
  | point | default
deriving DecidableEq, Repr

inductive Basis where
  | base | hold | boost | window | floor
deriving DecidableEq, Repr

inductive MeasureState where
  | fresh | aged | blind
deriving DecidableEq, Repr

inductive CallState where
  | idle | calling
deriving DecidableEq, Repr

/-- A zone record: the fields of the table of section 1.1, in its order. -/
structure ZoneRecord where
  serviceMode : ServiceMode
  defaultTarget : Int
  primaryUnit : Option UnitIx
  baseTarget : Int
  baseSource : BaseSource
  resolvedTarget : Int
  resolvedBasis : Basis
  measured : Option Int
  measureState : MeasureState
  measureUnit : Option UnitIx
  demand : Nat
  callState : CallState
  served : Bool
  frostEmergency : Bool
  flowReady : Bool
  valveCount : Nat
deriving DecidableEq, Repr

/-! ### Program Store (02 to 04) -/

/-- What a point gives: its own target, or a return to default_target (R32). -/
inductive PointKind where
  | target (t : Int)
  | setbackToDefault
deriving DecidableEq, Repr

/-- A point record on a zone list (R32); its zone is the list it stands on. -/
structure Point where
  minute : Nat
  kind : PointKind
deriving DecidableEq, Repr

/-- The end of a HOLD, with the remaining minutes of a DURATION (R43). -/
inductive HoldEnd where
  | duration (remaining : Nat)
  | untilNextPoint
  | indefinite
deriving DecidableEq, Repr

structure Hold where
  target : Int
  locked : Bool
  holdEnd : HoldEnd
  owner : Port
deriving DecidableEq, Repr

/-- A BOOST; delta in tenths of a degree (R43). -/
structure Boost where
  delta : Nat
  remaining : Nat
  owner : UnitIx
deriving DecidableEq, Repr

/-- An override stack: at most one entry of each kind (R43). -/
structure Stack where
  hold : Option Hold
  boost : Option Boost
  window : Bool
deriving DecidableEq, Repr

/-- A held claim (R63); a free claim is none, its remaining absent and its frozen no. -/
structure Held where
  holder : Port
  remaining : Nat
  frozen : Bool
deriving DecidableEq, Repr

structure Store where
  free : Nat
  lists : Vector (List Point) 16
  revisions : Vector Byte 16
  current : Vector (Option Nat) 16
  overrides : Vector Stack 16
  claims : Vector (Option Held) 17
deriving DecidableEq, Repr

/-! ### Store Arbiter (04 section 4.4) -/

inductive OrderKind where
  | push | remove
deriving DecidableEq, Repr

/-- The five requesters in ring order (R71, R72). -/
inductive Requester where
  | portA | portB | report | contact | clock
deriving DecidableEq, Repr

/-- A Program Store request (R71). A port's own request, a claim check made for a request of another block
(R70) naming the claim, the store step of a port reset (R76); boost, boost-cancel and owner-removal requests
(R50 to R53; an owner-removal keeps the port whose UNIT_REMOVE waits for it, R123); window requests (R55,
R56); a minute evaluation covering m minutes (R35). -/
inductive StoreReq where
  | host (p : Port) (r : HostReq)
  | check (p : Port) (r : HostReq) (claim : ClaimIx)
  | resetStep (p : Port)
  | boost (unit : UnitIx) (zone : Zone) (delta : Byte) (duration : Half)
  | boostCancel (unit : UnitIx)
  | ownerRemoval (unit : UnitIx) (p : Port)
  | window (zone : Zone) (kind : OrderKind)
  | minuteEval (m : Nat)
deriving DecidableEq, Repr

/-- The reasons of a BOOST_REPLY (R94). -/
inductive Reason where
  | accepted | locked | zoneOff | unknownUnit
deriving DecidableEq, Repr

/-- The status codes of section 10.3, in the table's order. -/
inductive Status where
  | ok | badFrame | unknownKind | range | noClaim | heldByOther | poolFull | listFull | duplicateTime
  | notFound | notAuthority | queueFull | limit | state | busy | nothing
deriving DecidableEq, Repr

/-- What leaves the Program Store when the request being carried out completes (R73): the reply to the port
with the claim the request used (R67), the result of a claim check (R70), the outcome of a boost request
(R51), or nothing but the completion. -/
inductive StoreResult where
  | reply (status : Status) (body : List Byte) (used : Option ClaimIx)
  | checked (pass : Bool)
  | boosted (reason : Reason)
  | done
deriving DecidableEq, Repr

structure Carried where
  req : StoreReq
  result : StoreResult
deriving DecidableEq, Repr

/-- The waiting set: at most one request per requester (R71). -/
structure WaitingSet where
  portA : Option StoreReq
  portB : Option StoreReq
  report : Option StoreReq
  contact : Option StoreReq
  clock : Option StoreReq
deriving DecidableEq, Repr

structure Arbiter where
  waiting : WaitingSet
  carrying : Option Carried
  parked : Requester
deriving DecidableEq, Repr

/-! ### Demand Unit (01 section 1.3) -/

/-- R7, R9, R14, R16, R19. `loopStart` is the tick of the last loop event (or restart of the timer);
`choices` is the model's own count of the free choices of R170 (log 8). -/
structure DemandUnit where
  loopStart : Nat
  loopRan : Bool
  heatList : List Zone
  lastIssued : Vector (Option Nat) 24
  zoneEvents : List Zone
  servedRecompute : Bool
  choices : Nat
deriving DecidableEq, Repr

/-! ### Contact Monitor (05) -/

inductive ContactState where
  | isOpen | isClosed
deriving DecidableEq, Repr

/-- The working fields of an input (R78); the timer counts quarter seconds. -/
structure InputWork where
  stableState : ContactState
  run : Nat
  openTimer : Option Nat
  windowAsserted : Bool
deriving DecidableEq, Repr

structure WindowOrder where
  zone : Zone
  kind : OrderKind
deriving DecidableEq, Repr

structure ContactMonitor where
  inputs : Vector InputWork 16
  samples : Nat
  pendingOrders : List WindowOrder
deriving DecidableEq, Repr

/-! ### Room Bus Controller (06) -/

inductive LineState where
  | busy | gap | free
deriving DecidableEq, Repr

inductive BusErrorState where
  | normal | stuck | recovering
deriving DecidableEq, Repr

/-- Where a frame on the line stands for the part as receiver (R95 to R99): its DEST is awaited; it holds a
reservation; it is not the part's own, or was refused; it has been admitted. -/
inductive RxMode where
  | awaitingDest | reserved | notOwn | admitted
deriving DecidableEq, Repr

/-- A frame being followed: its bytes from DEST on (of a frame not its own only DEST and SRC are kept) and
the own_address its DEST was compared against (R95). -/
structure RxFrame where
  mode : RxMode
  bytes : List Byte
  own : Byte
deriving DecidableEq, Repr

/-- What the part does with RBDA in an acknowledge slot (R91). -/
inductive Ack where
  | ack | nack | undriven
deriving DecidableEq, Repr

/-- A frame of the outbound queue with its fields (R94, R103). -/
inductive OutBody where
  | announce (zone : Zone) (target : Int) (basis : Basis)
  | joinAck (dest : Byte) (zone : Option Zone)
  | boostReply (dest : Byte) (reason : Reason)
deriving DecidableEq, Repr

structure OutFrame where
  body : OutBody
  failures : Nat
deriving DecidableEq, Repr

inductive ControlKind where
  | holdOff | resume
deriving DecidableEq, Repr

structure ControlFrame where
  kind : ControlKind
  failures : Nat
deriving DecidableEq, Repr

/-- An attempt in transmission: which slot's frame, and the SRC it is sent with (R95). -/
structure Attempt where
  source : Source
  src : Byte
deriving DecidableEq, Repr

/-- A deferral wait: whose, and the tick at which its limit is reached (R108). -/
structure Deferral where
  source : Source
  deadline : Nat
deriving DecidableEq, Repr

/-- Section 6.3 to 6.6. `gapSince`, `stuckSince` and `highSince` are ticks; a backoff is held as the tick at
which it ends. -/
structure RoomBus where
  line : LineState
  gapSince : Nat
  errState : BusErrorState
  stuckSince : Nat
  highSince : Nat
  syncing : Bool
  errorCount : Nat
  rx : Option RxFrame
  lastAck : Ack
  outbound : List OutFrame
  control : Option ControlFrame
  pendingControl : Option ControlKind
  attempt : Option Attempt
  deferral : Option Deferral
  controlBackoff : Option Nat
  outboundBackoff : Option Nat
  backoffReg : BitVec 16
deriving DecidableEq, Repr

/-! ### Report Processor (07) -/

/-- The payload of a received frame, by kind (R94): temperature and humidity of a TEMP, delta and duration
of a BOOST, unit type and serial of a JOIN. -/
inductive Payload where
  | temp (temperature : Int) (humidity : Option Byte)
  | boost (delta : Byte) (duration : Half)
  | boostCancel
  | join (unitType : Byte) (serial : BitVec 32)
deriving DecidableEq, Repr

structure FrameRecord where
  src : Byte
  payload : Payload
  arrival : Nat
deriving DecidableEq, Repr

inductive HoldOffState where
  | flowing | held
deriving DecidableEq, Repr

inductive Role where
  | sensor | panel
deriving DecidableEq, Repr

inductive Freshness where
  | fresh | stale | lost
deriving DecidableEq, Repr

/-- PENDING, or ACTIVE with the zone and role UNIT_ADMIT gave (R119: zone and role are none while PENDING). -/
inductive UnitState where
  | pending
  | active (zone : Zone) (role : Role)
deriving DecidableEq, Repr

/-- An occupied registry record (R119). -/
structure UnitRecord where
  address : Byte
  serial : BitVec 32
  unitType : Byte
  state : UnitState
  lastTemp : Option Int
  lastHumidity : Option Byte
  lastReport : Option Nat
  freshness : Freshness
  implausibleCount : Nat
  faulty : Bool
deriving DecidableEq, Repr

/-- R114, R116, R117, R119. A FREE registry record is none. -/
structure ReportProcessor where
  queue : List FrameRecord
  reserved : Bool
  headRaised : Bool
  holdOff : HoldOffState
  storeOrders : List StoreReq
  registry : Vector (Option UnitRecord) 32
deriving DecidableEq, Repr

/-! ### Valve Drive Unit (08) -/

inductive ChannelState where
  | unassigned | uncalibrated | idle | waiting | moving | dwelling | fault
deriving DecidableEq, Repr

/-- Where a MOVE_TO came from: LOOP and SERVICE entries of the queue (R139), or the urgent slot (R150). -/
inductive Origin where
  | loop | service | urgent
deriving DecidableEq, Repr

inductive Entry where
  | moveTo (position : Nat) (origin : Origin)
  | dwell (seconds : Nat)
  | seekClosed
  | mark (owner : Port) (tag : Byte)
deriving DecidableEq, Repr

/-- A movement: start position (unknown for a SEEK_CLOSED of an uncalibrated channel), effective target,
drive slot and the full_stroke it was started with (R134, R137, R146). -/
structure Movement where
  start : Option Nat
  target : Nat
  slot : Slot
  stroke : Nat
deriving DecidableEq, Repr

/-- The entry being carried out, when it started (tick and second count) and, for a movement, its data. -/
structure InProgress where
  entry : Entry
  startTick : Nat
  startSecond : Nat
  move : Option Movement
deriving DecidableEq, Repr

/-- A channel record (R134). The urgent slot holds the position of its MOVE_TO. -/
structure ChannelRecord where
  zone : Option Zone
  state : ChannelState
  calibrated : Bool
  position : Option Nat
  fullStroke : Nat
  minPos : Nat
  maxPos : Nat
  lastMoved : Option Nat
  openConfirmed : Bool
  inProgress : Option InProgress
  queue : List Entry
  urgent : Option Nat
deriving DecidableEq, Repr

structure ValveUnit where
  channels : Vector ChannelRecord 24
  slots : Vector (Option Channel) 3
  waiting : List Channel
deriving DecidableEq, Repr

/-! ### Firing Controller and Burner Link (09) -/

inductive FiringState where
  | off | requesting | firing | runout | anticycle | lockout | linkDown
deriving DecidableEq, Repr

/-- The causes of R176, in the table's order. -/
inductive Cause where
  | permitted | flameOn | flameOff | notPermitted | dump | runoutEnd | minOff | frost | lockout
  | lockoutCleared | linkDown | linkUp
deriving DecidableEq, Repr

/-- The call picture of R163, R164. -/
structure CallPicture where
  list : List Zone
  served : Vector Bool 16
  demand : Vector Nat 16
  frost : Vector Bool 16
  flowReady : Vector Bool 16
deriving DecidableEq, Repr

/-- The fields of R163; the heat request and the pump request are computed from them (R165, R178). The two
timers are held as the tick at which they run out. -/
structure Firing where
  state : FiringState
  stateEntered : Nat
  setpoint : Nat
  picture : CallPicture
  runoutSet : List Zone
  runoutTimer : Option Nat
  offSince : Option Nat
  lockoutPumpTimer : Option Nat
  dump : Bool
  frostSkip : Bool
  resetsToday : Nat
  pendingReset : Bool
deriving DecidableEq, Repr

/-- The fields of a good STATUS (R161). -/
structure BoilerStatus where
  flame : Bool
  lockout : Bool
  flow : Nat
  ret : Nat
  faultCode : Byte
deriving DecidableEq, Repr

structure LastStatus where
  status : BoilerStatus
  arrival : Nat
deriving DecidableEq, Repr

/-- The DEMAND contents of R160. -/
structure DemandFrame where
  heatRequest : Bool
  pumpRequest : Bool
  resetRequest : Bool
  setpoint : Nat
deriving DecidableEq, Repr

/-- Where an exchange stands (R160): none open; the DEMAND being sent; the reply window open since a tick. -/
inductive ExchangeState where
  | none
  | sending
  | window (since : Nat)
deriving DecidableEq, Repr

inductive Direction where
  | towardsBoiler | towardsPart
deriving DecidableEq, Repr

/-- What the Burner Link does with received bytes (R202): it waits for the first byte of a frame; it assembles one,
whose bytes it keeps; it discards. The last two keep the tick of the last byte received. -/
inductive LinkRx where
  | quiet
  | frame (bytes : List Byte) (last : Nat)
  | discarding (last : Nat)
deriving DecidableEq, Repr

/-- R159, R160, R202. -/
structure BurnerLink where
  nextExchange : Nat
  up : Bool
  missCount : Nat
  lastStatus : Option LastStatus
  exchange : ExchangeState
  demand : Option DemandFrame
  bldir : Direction
  rx : LinkRx
deriving DecidableEq, Repr

/-! ### Host ports (10) -/

/-- The 22 notice kinds of section 10.5, in the table's order. -/
inductive NoticeKind where
  | targetChanged | overrideReplaced | overrideExpired | claimLapsed | contactChanged | unitJoined
  | unitStale | unitLost | reportImplausible | addressConflict | registryFull | sendFailed | busError
  | valveJam | valveMark | noEndStop | firingState | linkDown | linkUp | heatDump | frostEmergency | timeSet
deriving DecidableEq, Repr

/-- A notice's subject: its type and value (R190). -/
inductive Subject where
  | zone (z : Zone)
  | channel (c : Channel)
  | unit (u : UnitIx)
  | port (p : Port)
  | address (a : Byte)
  | none
deriving DecidableEq, Repr

/-- A notice record (R190); the detail as its bytes (section 11.3). -/
structure Notice where
  kind : NoticeKind
  subject : Subject
  arisen : Nat
  detail : List Byte
deriving DecidableEq, Repr

/-- A reply: the request kind (none when the frame ended before it), the status and the body (R187). -/
structure Reply where
  kind : Option Byte
  status : Status
  body : List Byte
deriving DecidableEq, Repr

/-- The fault record's first refusal and the count of later ones (R193). -/
structure FaultRecord where
  kind : Option Byte
  status : Status
  subject : Option Byte
  arisen : Nat
  later : Nat
deriving DecidableEq, Repr

inductive RequestState where
  | idle | inFlight | replyReady
deriving DecidableEq, Repr

inductive FetchItem where
  | reply (r : Reply)
  | notice (n : Notice)
  | nothing
deriving DecidableEq, Repr

/-- A FETCH transaction in progress: the item chosen, the header's notices_lost and notices_waiting, and
whether a port reset has taken the item away (R188, R199). -/
structure FetchInProgress where
  item : FetchItem
  lost : Bool
  waiting : Nat
  gone : Bool
deriving DecidableEq, Repr

/-- A port (R183), with the level of its attention output (R189). -/
structure PortState where
  request : RequestState
  slot : Option HostReq
  reply : Option Reply
  resetPending : Bool
  discard : Bool
  notices : List Notice
  mask : Vector Bool 22
  noticesLost : Bool
  fault : Option FaultRecord
  otherSeen : Bool
  fetch : Option FetchInProgress
  attentionLow : Bool
deriving DecidableEq, Repr

/-! ### The whole device -/

/-- The device: one field per block of the block diagram (00 section 2), the parameters as last written by
CONFIGURE and as taken up by the blocks (R197, R198), and the queue of commands waiting. -/
structure State where
  pending : List Instr
  clock : Clock
  written : Params
  taken : Params
  zones : Vector ZoneRecord 16
  store : Store
  arbiter : Arbiter
  demand : DemandUnit
  contacts : ContactMonitor
  bus : RoomBus
  report : ReportProcessor
  valves : ValveUnit
  firing : Firing
  link : BurnerLink
  portA : PortState
  portB : PortState
deriving DecidableEq, Repr

/-- There is no fault: the spec describes no condition that stops the device. A host's refusal is a reply, a
jam a channel state, a stuck bus a bus state, a lockout a firing state (log 25). Safe. -/
inductive Fault
deriving DecidableEq, Repr

/-- Refusals: the one the interface asks for. -/
inductive Refusal where
  /-- Raised by an arm of exec whose row has no meaning yet; no arm raises it. Safe. -/
  | notModelled (mnemonic : String)
deriving DecidableEq, Repr

/-! ### Device reset -/

/-- R78. -/
def ContactSettings.reset : ContactSettings where
  enable := false
  polarity := .lowOpen
  debounce := 4
  openEdgeNotice := false
  closeEdgeNotice := false
  windowDelay := 60

/-- The defaults of the parameter table (10 section 10.8). -/
def Params.reset : Params where
  frostFloor := 50
  maxTarget := 280
  claimLapse := 30
  propBand := 20
  callOn := 20
  callOff := 5
  loopPeriod := 30
  deadband := 5
  blindOpening := 30
  servedLimit := 16
  openThreshold := 20
  exerciseEnable := true
  minFlow := 35
  maxFlow := 70
  runoutTime := 120
  minOff := 180
  bypassEnable := false
  dumpThreshold := 88
  linkPeriod := 2
  linkMisses := 3
  staleAge := 300
  lostAge := 900
  plausLow := -100
  plausHigh := 450
  holdoffLevel := 12
  resumeLevel := 4
  ownAddress := 0x10
  deferralLimit := 250
  backoffCap := 4
  contacts := Vector.replicate 16 .reset

/-- R2. -/
def ZoneRecord.reset : ZoneRecord where
  serviceMode := .unused
  defaultTarget := 180
  primaryUnit := none
  baseTarget := 180
  baseSource := .default
  resolvedTarget := 180
  resolvedBasis := .base
  measured := none
  measureState := .blind
  measureUnit := none
  demand := 0
  callState := .idle
  served := false
  frostEmergency := false
  flowReady := false
  valveCount := 0

/-- R78. -/
def InputWork.reset : InputWork where
  stableState := .isClosed
  run := 0
  openTimer := none
  windowAsserted := false

/-- R134. -/
def ChannelRecord.reset : ChannelRecord where
  zone := none
  state := .unassigned
  calibrated := false
  position := none
  fullStroke := 90
  minPos := 0
  maxPos := 100
  lastMoved := none
  openConfirmed := false
  inProgress := none
  queue := []
  urgent := none

/-- R183, R189. -/
def PortState.reset : PortState where
  request := .idle
  slot := none
  reply := none
  resetPending := false
  discard := false
  notices := []
  mask := Vector.replicate 22 true
  noticesLost := false
  fault := none
  otherSeen := false
  fetch := none
  attentionLow := false

/-- R23. -/
def Clock.reset : Clock where
  ticks := 0
  secondsTaken := 0
  minute := 0
  seconds := 0
  timeValid := false
  authority := none

/-- R31, R33, R37, R43, R63. -/
def Store.reset : Store where
  free := Config.poolSize
  lists := Vector.replicate 16 []
  revisions := Vector.replicate 16 0
  current := Vector.replicate 16 none
  overrides := Vector.replicate 16 ⟨none, none, false⟩
  claims := Vector.replicate 17 none

/-- R71. -/
def Arbiter.reset : Arbiter where
  waiting := ⟨none, none, none, none, none⟩
  carrying := none
  parked := .clock

/-- R7, R9, R14, R19. -/
def DemandUnit.reset : DemandUnit where
  loopStart := 0
  loopRan := false
  heatList := []
  lastIssued := Vector.replicate 24 none
  zoneEvents := []
  servedRecompute := false
  choices := 0

/-- R78, R80, R86. -/
def ContactMonitor.reset : ContactMonitor where
  inputs := Vector.replicate 16 .reset
  samples := 0
  pendingOrders := []

/-- R90, R100, R101, R103, R106, R110. -/
def RoomBus.reset : RoomBus where
  line := .gap
  gapSince := 0
  errState := .normal
  stuckSince := 0
  highSince := 0
  syncing := false
  errorCount := 0
  rx := none
  lastAck := .undriven
  outbound := []
  control := none
  pendingControl := none
  attempt := none
  deferral := none
  controlBackoff := none
  outboundBackoff := none
  backoffReg := 0x5A3C

/-- R114, R116, R117, R119. -/
def ReportProcessor.reset : ReportProcessor where
  queue := []
  reserved := false
  headRaised := false
  holdOff := .flowing
  storeOrders := []
  registry := Vector.replicate 32 none

/-- R134, R143. -/
def ValveUnit.reset : ValveUnit where
  channels := Vector.replicate 24 .reset
  slots := Vector.replicate 3 none
  waiting := []

/-- R163. -/
def Firing.reset : Firing where
  state := .off
  stateEntered := 0
  setpoint := Params.reset.minFlow
  picture := ⟨[], Vector.replicate 16 false, Vector.replicate 16 0, Vector.replicate 16 false,
    Vector.replicate 16 false⟩
  runoutSet := []
  runoutTimer := none
  offSince := none
  lockoutPumpTimer := none
  dump := false
  frostSkip := false
  resetsToday := 0
  pendingReset := false

/-- R159: the first exchange starts when link_period has elapsed after the reset. -/
def BurnerLink.reset : BurnerLink where
  nextExchange := Params.reset.linkPeriod * Config.hz
  up := true
  missCount := 0
  lastStatus := none
  exchange := .none
  demand := none
  bldir := .towardsPart
  rx := .quiet

/-- The device after a device reset, with no command waiting. -/
def State.reset : State where
  pending := []
  clock := .reset
  written := .reset
  taken := .reset
  zones := Vector.replicate 16 .reset
  store := .reset
  arbiter := .reset
  demand := .reset
  contacts := .reset
  bus := .reset
  report := .reset
  valves := .reset
  firing := .reset
  link := .reset
  portA := .reset
  portB := .reset

end Sys2Proof.Machine
end

