-- ==== Sys2Proof/Machine/Operands.lean ====
section
/-! DEFINITION. The encodings of R200 and the layouts of chapter 11: reading the raw values of a request's
fields, and the bytes of the values the part sends. -/

namespace Sys2Proof.Machine

/-! ### Reading raw values -/

/-- A number below n, or none when the byte is out of range. -/
def fin? (n : Nat) (b : Byte) : Option (Fin n) :=
  if h : b.toNat < n then some ⟨b.toNat, h⟩ else none

def zone? (b : Byte) : Option Zone := fin? 16 b

def channel? (b : Byte) : Option Channel := fin? 24 b

def unit? (b : Byte) : Option UnitIx := fin? 32 b

def claim? (b : Byte) : Option ClaimIx := fin? 17 b

/-- A number below n or none (0xFF): the outer option is "in range" (R200). -/
def finOrNone? (n : Nat) (b : Byte) : Option (Option (Fin n)) :=
  if b = 0xFF then some none else (fin? n b).map some

/-- yes/no, on/off (R200). -/
def flag? (b : Byte) : Option Bool :=
  if b = 0 then some false else if b = 1 then some true else none

/-- UNUSED 0, OFF 1, IN_SERVICE 2. -/
def serviceMode? (b : Byte) : Option ServiceMode :=
  if b = 0 then some .unused else if b = 1 then some .off else if b = 2 then some .inService else none

/-- SENSOR 0, PANEL 1. -/
def role? (b : Byte) : Option Role :=
  if b = 0 then some .sensor else if b = 1 then some .panel else none

/-- A target in tenths lying between the two limits inclusive. -/
def target? (lo hi : Int) (v : Half) : Option Int :=
  if lo ≤ v.toInt ∧ v.toInt ≤ hi then some v.toInt else none

/-- A minute of week, 0 to 10079. -/
def minute? (v : Half) : Option Nat := if v.toNat ≤ 10079 then some v.toNat else none

/-- The kind byte of a point with its target: TARGET 0 with a target between the limits, SETBACK_TO_DEFAULT 1
with its target field not checked (R38). -/
def pointKind? (lo hi : Int) (kind : Byte) (target : Half) : Option PointKind :=
  if kind = 0 then (target? lo hi target).map .target
  else if kind = 1 then some .setbackToDefault
  else none

/-- A packed point of SCHEDULE_LOAD (section 11.2): minute in bits 23 to 10, kind in bit 9, target less 30 in
bits 8 to 0. None when it is at fault under R40. The target bits of a SETBACK_TO_DEFAULT are not looked at (log 22). -/
def packedPoint? (lo hi : Int) (p : BitVec 24) : Option Point :=
  let minute := (p.extractLsb' 10 14).toNat
  let target : Int := (p.extractLsb' 0 9).toNat + 30
  if minute > 10079 then none
  else if p.getLsbD 9 then some ⟨minute, .setbackToDefault⟩
  else if lo ≤ target ∧ target ≤ hi then some ⟨minute, .target target⟩
  else none

/-- The end of a HOLD: DURATION 0 with minutes 1 to 10080, UNTIL_NEXT_POINT 1, INDEFINITE 2 (R45). -/
def holdEnd? (b : Byte) (minutes : Half) : Option HoldEnd :=
  if b = 0 then
    if 1 ≤ minutes.toNat ∧ minutes.toNat ≤ 10080 then some (.duration minutes.toNat) else none
  else if b = 1 then some .untilNextPoint
  else if b = 2 then some .indefinite
  else none

/-- An entry of VALVE_SERVICE as the queue holds it, or none when a value is out of range (R141). The value byte
of a SEEK_CLOSED, which R201 sends as 0, is not looked at (log 22). -/
def serviceEntry? (p : Port) (e : ServiceEntry) : Option Entry :=
  if e.kind = 0 then if e.value.toNat ≤ 100 then some (.moveTo e.value.toNat .service) else none
  else if e.kind = 1 then if 1 ≤ e.value.toNat then some (.dwell e.value.toNat) else none
  else if e.kind = 2 then some .seekClosed
  else if e.kind = 3 then some (.mark p e.value)
  else none

/-- All results of a list of readings, or none when one is out of range. -/
def all? {α : Type} : List (Option α) → Option (List α)
  | [] => some []
  | none :: _ => none
  | some x :: rest => (all? rest).map (x :: ·)

/-! ### Codes of enumerated values (R200: the position, from 0, in the order first listed) -/

def ServiceMode.code : ServiceMode → Byte
  | .unused => 0 | .off => 1 | .inService => 2

def BaseSource.code : BaseSource → Byte
  | .point => 0 | .default => 1

def Basis.code : Basis → Byte
  | .base => 0 | .hold => 1 | .boost => 2 | .window => 3 | .floor => 4

def MeasureState.code : MeasureState → Byte
  | .fresh => 0 | .aged => 1 | .blind => 2

def CallState.code : CallState → Byte
  | .idle => 0 | .calling => 1

def Polarity.code : Polarity → Byte
  | .lowOpen => 0 | .highOpen => 1

def ContactState.code : ContactState → Byte
  | .isOpen => 0 | .isClosed => 1

def OrderKind.code : OrderKind → Byte
  | .push => 0 | .remove => 1

def Reason.code : Reason → Byte
  | .accepted => 0 | .locked => 1 | .zoneOff => 2 | .unknownUnit => 3

def Freshness.code : Freshness → Byte
  | .fresh => 0 | .stale => 1 | .lost => 2

def HoldOffState.code : HoldOffState → Byte
  | .flowing => 0 | .held => 1

def ChannelState.code : ChannelState → Byte
  | .unassigned => 0 | .uncalibrated => 1 | .idle => 2 | .waiting => 3 | .moving => 4 | .dwelling => 5
  | .fault => 6

def FiringState.code : FiringState → Byte
  | .off => 0 | .requesting => 1 | .firing => 2 | .runout => 3 | .anticycle => 4 | .lockout => 5
  | .linkDown => 6

def Cause.code : Cause → Byte
  | .permitted => 0 | .flameOn => 1 | .flameOff => 2 | .notPermitted => 3 | .dump => 4 | .runoutEnd => 5
  | .minOff => 6 | .frost => 7 | .lockout => 8 | .lockoutCleared => 9 | .linkDown => 10 | .linkUp => 11

def HeldWire.code : HeldWire → Byte
  | .clock => 0 | .data => 1 | .both => 2

/-- The status codes run from OK 0 to NOTHING 15 (R200). -/
def Status.code : Status → Byte
  | .ok => 0 | .badFrame => 1 | .unknownKind => 2 | .range => 3 | .noClaim => 4 | .heldByOther => 5
  | .poolFull => 6 | .listFull => 7 | .duplicateTime => 8 | .notFound => 9 | .notAuthority => 10
  | .queueFull => 11 | .limit => 12 | .state => 13 | .busy => 14 | .nothing => 15

/-- The number of a notice kind (10 section 10.5). -/
def NoticeKind.number : NoticeKind → Fin 22
  | .targetChanged => 0 | .overrideReplaced => 1 | .overrideExpired => 2 | .claimLapsed => 3
  | .contactChanged => 4 | .unitJoined => 5 | .unitStale => 6 | .unitLost => 7 | .reportImplausible => 8
  | .addressConflict => 9 | .registryFull => 10 | .sendFailed => 11 | .busError => 12 | .valveJam => 13
  | .valveMark => 14 | .noEndStop => 15 | .firingState => 16 | .linkDown => 17 | .linkUp => 18
  | .heatDump => 19 | .frostEmergency => 20 | .timeSet => 21

/-! ### Bytes of values (R200) -/

def enc8 (n : Nat) : Byte := BitVec.ofNat 8 n

def enc16 (n : Nat) : List Byte := be16 (BitVec.ofNat 16 n)

def enc32 (n : Nat) : List Byte := be32 (BitVec.ofNat 32 n)

/-- A second count of four bytes: seconds since device reset; absent is 0xFFFFFFFF. -/
def enc32Opt : Option Nat → List Byte
  | some n => enc32 n
  | none => be32 0xFFFFFFFF

def enc16Opt : Option Nat → List Byte
  | some n => enc16 n
  | none => be16 0xFFFF

/-- The seconds of a duration, an age among them, in two bytes; the code of a longer one is free (log 32). -/
def encSeconds (n : Nat) : List Byte :=
  if n < 65536 then enc16 n else be16 (Config.longDuration n)

def encSecondsOpt : Option Nat → List Byte
  | some n => encSeconds n
  | none => be16 0xFFFF

/-- A temperature in tenths, two's complement. -/
def encTemp (t : Int) : List Byte := be16 (BitVec.ofInt 16 t)

def encTempOpt : Option Int → List Byte
  | some t => encTemp t
  | none => be16 0x8000

def encFin {n : Nat} (i : Fin n) : Byte := enc8 i.val

/-- A zone, channel or index, or 0xFF for none. -/
def encFinOpt {n : Nat} : Option (Fin n) → Byte
  | some i => encFin i
  | none => 0xFF

def encPort : Port → Byte
  | .A => 0 | .B => 1

def encPortOpt : Option Port → Byte
  | some p => encPort p
  | none => 0xFF

def encFlag (b : Bool) : Byte := if b then 1 else 0

/-- A byte for a value that may be absent where R200 gives no code: the free value of its field (log 11). -/
def encUncoded (f : Config.Uncoded) : Option Nat → Byte
  | some n => enc8 n
  | none => Config.uncoded f

/-- A list of varying length: its count, then its members. -/
def encList {α : Type} (enc : α → List Byte) (l : List α) : List Byte :=
  enc8 l.length :: l.flatMap enc

/-- A value that may be absent: a presence byte, then its fields (log 12). -/
def presence {α : Type} (enc : α → List Byte) : Option α → List Byte
  | some x => 1 :: enc x
  | none => [0]

/-- A point in three bytes (section 11.2). -/
def encPoint (p : Point) : List Byte :=
  be24 <| BitVec.ofNat 24 <|
    match p.kind with
    | .target t => p.minute * 1024 + (t - 30).toNat
    | .setbackToDefault => p.minute * 1024 + 512

def NoticeKind.code (k : NoticeKind) : Byte := encFin k.number

/-- Subject type and value (section 11.3). -/
def Subject.bytes : Subject → List Byte
  | .zone z => [0, encFin z]
  | .channel c => [1, encFin c]
  | .unit u => [2, encFin u]
  | .port p => [3, encPort p]
  | .address a => [4, a]
  | .none => [5, 0xFF]

/-- The notice record of section 11.3. -/
def Notice.bytes (n : Notice) : List Byte :=
  [n.kind.code] ++ n.subject.bytes ++ enc32 n.arisen ++ [enc8 n.detail.length] ++ n.detail

/-- A kind byte, or the free code when the kind is none. -/
def encKind : Option Byte → Byte
  | some k => k
  | none => Config.uncoded .replyKind

/-! ### FETCH: header and item (section 11.2, R188) -/

/-- The bytes of the item: request kind and reply body, or the notice record, then a CRC-8 over them. -/
def FetchItem.bytes : FetchItem → List Byte
  | .reply r =>
    let b := encKind r.kind :: r.body
    b ++ [crc8 b]
  | .notice n => n.bytes ++ [crc8 n.bytes]
  | .nothing => []

def FetchItem.content : FetchItem → Byte
  | .nothing => 0 | .reply _ => 1 | .notice _ => 2

def FetchItem.status : FetchItem → Status
  | .nothing => .nothing | .reply r => r.status | .notice _ => .ok

/-- The seven bytes of the FETCH header. -/
def FetchInProgress.header (f : FetchInProgress) : List Byte :=
  let h := [f.item.content, f.item.status.code, encFlag f.lost, enc8 f.waiting] ++
    enc16 f.item.bytes.length
  h ++ [crc8 h]

/-- What a port clocks out when it has nothing to send (R184). -/
def fillByte : Byte := 0x00

/-- The byte a FETCH clocks out at a place after its transaction byte, counted from 0: header, item, then fill bytes;
fill bytes alone once a port reset has taken the item away (R184, R199). -/
def FetchInProgress.byteOut (f : FetchInProgress) (n : Nat) : Byte :=
  if f.gone then fillByte else (f.header ++ f.item.bytes).getD n fillByte

/-- The port's data output (R183, R184): driven while a FETCH is in progress, with the byte of the place reached,
and at high impedance (none) otherwise (log 20). -/
def PortState.dataOut (p : PortState) (n : Nat) : Option Byte := p.fetch.map fun f => f.byteOut n

/-- What a port clocks out at a place of a transaction with a given transaction byte (R184): a void transaction is
fill bytes throughout; for a REQUEST the spec names none. -/
def PortState.clockedOut (p : PortState) (first : Byte) (n : Nat) : Option Byte :=
  match judgeTransaction [first] with
  | .fetch => p.dataOut n
  | .void => some fillByte
  | _ => none

/-! ### Room bus frames (R93, section 11.4) -/

/-- The KIND byte of the part's frames. -/
def OutBody.kindByte : OutBody → Byte
  | .announce .. => 0x06 | .joinAck .. => 0x07 | .boostReply .. => 0x08

def ControlKind.kindByte : ControlKind → Byte
  | .holdOff => 0x04 | .resume => 0x05

def OutBody.dest : OutBody → Byte
  | .announce .. => 0 | .joinAck dest _ => dest | .boostReply dest _ => dest

def OutBody.payload : OutBody → List Byte
  | .announce zone target basis => [encFin zone] ++ encTemp target ++ [basis.code]
  | .joinAck _ zone => [encFinOpt zone]
  | .boostReply _ reason => [reason.code]

/-- DEST, SRC, KIND, LEN, payload, CRC (R93). -/
def busFrame (dest src kind : Byte) (payload : List Byte) : List Byte :=
  let b := [dest, src, kind, enc8 payload.length] ++ payload
  b ++ [crc8 b]

/-! ### Burner link bytes and frames (R202, section 11.5) -/

/-- The byte an arrived byte spells: its data bits, least significant first. -/
def linkValue (b : LinkByte) : Byte := (BitVec.ofBoolListLE b.data.toList).setWidth 8

/-- The level of the burner link's line between bytes. -/
def linkRest : Bool := true

/-- The levels of a byte on the line, bit by bit: the start bit, away from the resting level (log 46), the data bits,
and the stop bit, at the resting level unless it is at fault. -/
def linkByteLevels (b : LinkByte) : List Bool :=
  [!linkRest] ++ b.data.toList ++ [if b.stopLow then !linkRest else linkRest]

/-- A byte as it is sent: its bits, least significant first, and a good stop bit. -/
def linkByteOf (v : Byte) : LinkByte := ⟨Vector.ofFn fun i => v.getLsbD i, false⟩

/-- The bytes of a DEMAND frame. -/
def DemandFrame.bytes (d : DemandFrame) : List Byte :=
  let b := [0x01, 4, encFlag d.heatRequest, encFlag d.pumpRequest, encFlag d.resetRequest, enc8 d.setpoint]
  b ++ [crc8 b]

/-- The levels of a DEMAND on BLTX, the line resting between bytes and after them. -/
def DemandFrame.levels (d : DemandFrame) : List Bool := d.bytes.flatMap fun v => linkByteLevels (linkByteOf v)

/-- The bytes of a STATUS frame as they arrive. -/
def StatusBytes.bytes (f : StatusBytes) : List Byte :=
  [0x02, 5, f.flame, f.lockout, f.flow, f.ret, f.faultCode, f.crc]

/-- The judging of a complete STATUS frame (R161): its check byte, flame and lockout yes or no, flow and
return temperature 0 to 125. -/
def goodStatus? (f : StatusBytes) : Option BoilerStatus :=
  if f.crc ≠ crc8 [0x02, 5, f.flame, f.lockout, f.flow, f.ret, f.faultCode] then none
  else
    match flag? f.flame, flag? f.lockout with
    | some flame, some lockout =>
      if f.flow.toNat ≤ 125 ∧ f.ret.toNat ≤ 125 then
        some ⟨flame, lockout, f.flow.toNat, f.ret.toNat, f.faultCode⟩
      else none
    | _, _ => none

end Sys2Proof.Machine
end

