-- ==== Sys2Proof/Machine/Flags.lean ====
section
/-! DEFINITION. The judgements the blocks make from their inputs, each a function of plain values:
resolution, current point, demand, loop positions, firing permitted, estimates, elapsed times. -/

namespace Sys2Proof.Machine

/-- The floor of (num / den + 1/2): rounding to the nearest whole number, halves upward (R10, R17, R177). -/
def roundHalfUp (num den : Int) : Int := (2 * num + den) / (2 * den)

/-- Rounding to the nearest whole number with halves towards 0 (R146: towards the start position). -/
def roundHalfDown (num den : Nat) : Nat := (2 * num + den - 1) / (2 * den)

/-! ### Targets -/

/-- Resolution (R58), step by step. -/
def resolve (mode : ServiceMode) (base : Int) (st : Stack) (floor max : Int) : Int × Basis :=
  let r := (base, Basis.base)
  let r := match st.hold with
    | some h => (h.target, Basis.hold)
    | none => r
  let r := match st.boost with
    | some b => (r.1 + b.delta, Basis.boost)
    | none => r
  let r := if st.window then (floor, Basis.window) else r
  let r := if mode = .off ∧ st.window = false then (floor, Basis.floor) else r
  if r.1 < floor then (floor, .floor)
  else if max < r.1 then (max, r.2)
  else r

/-- The current point of a list (R33). -/
def currentPoint (timeValid : Bool) (minute : Nat) (l : List Point) : Option Point :=
  if timeValid then
    match (l.filter fun p => p.minute ≤ minute).getLast? with
    | some p => some p
    | none => l.getLast?
  else none

/-- base_target and base_source from the current point (R34). -/
def baseOf (point : Option Point) (defaultTarget : Int) : Int × BaseSource :=
  match point with
  | some ⟨_, .target t⟩ => (t, .point)
  | _ => (defaultTarget, .default)

/-- Insertion of a point in increasing minute (R38). -/
def insertPoint (p : Point) : List Point → List Point
  | [] => [p]
  | q :: rest => if p.minute < q.minute then p :: q :: rest else q :: insertPoint p rest

/-- The points sorted into increasing minute (R41). -/
def sortPoints (l : List Point) : List Point := l.foldr insertPoint []

/-- The smallest index whose key repeats that of an earlier member (R40, R196). -/
def firstRepeat {α : Type} [DecidableEq α] (seen : List α) (i : Nat) : List α → Option Nat
  | [] => none
  | x :: rest => if x ∈ seen then some i else firstRepeat (x :: seen) (i + 1) rest

/-- The index of the first member that fails a test. -/
def firstFault {α : Type} (ok : α → Bool) (i : Nat) : List α → Option Nat
  | [] => none
  | x :: rest => if ok x then firstFault ok (i + 1) rest else some i

/-- The boost values brought into range (R50). -/
def boostDelta (d : Byte) : Nat := max 5 (min 30 (d.toNat / 5 * 5))

def boostDuration (m : Half) : Nat := max 15 (min 240 m.toNat)

/-- The remaining minutes of a HOLD with end DURATION. -/
def Hold.remaining (h : Hold) : Option Nat :=
  match h.holdEnd with
  | .duration r => some r
  | _ => none

/-- A HOLD after m minutes: none when its count has reached 0 or below (R47). -/
def Hold.lower (m : Nat) (h : Hold) : Option Hold :=
  match h.holdEnd with
  | .duration r => if r ≤ m then none else some { h with holdEnd := .duration (r - m) }
  | _ => some h

/-- A BOOST after m minutes (R47). -/
def Boost.lower (m : Nat) (b : Boost) : Option Boost :=
  if b.remaining ≤ m then none else some { b with remaining := b.remaining - m }

/-! ### Demand -/

/-- Demand of a zone with a measurement (R10). -/
def demandOf (resolved measured : Int) (propBand : Nat) : Nat :=
  min 100 (roundHalfUp (100 * (resolved - measured)) propBand).toNat

/-- Demand of a zone outside frost emergency (R10, R11). -/
def ordinaryDemand (z : ZoneRecord) (floor : Int) (propBand blindOpening : Nat) : Nat :=
  match z.serviceMode with
  | .unused => 0
  | _ =>
    match z.measureState, z.measured with
    | .blind, _ => if floor < z.resolvedTarget then blindOpening else 0
    | _, some t => demandOf z.resolvedTarget t propBand
    | _, none => 0

/-- Call hysteresis (R12). -/
def nextCall (cur : CallState) (demand callOn callOff : Nat) : CallState :=
  match cur with
  | .idle => if callOn ≤ demand then .calling else .idle
  | .calling => if demand ≤ callOff then .idle else .calling

/-- Entry into frost emergency (R20); the measurement limit is frost_floor − 1.0. -/
def frostEntry (z : ZoneRecord) (floor : Int) : Bool :=
  !z.frostEmergency && z.serviceMode != .unused && z.measureState != .blind &&
    (match z.measured with
      | some t => t ≤ floor - 10
      | none => false)

/-- Leaving frost emergency (R22). -/
def frostExit (z : ZoneRecord) (floor : Int) : Bool :=
  z.frostEmergency && (z.serviceMode == .unused || z.measureState == .blind ||
    (match z.measured with
      | some t => floor + 5 ≤ t
      | none => false))

/-- The requested position of a channel (R17). -/
def requestedPosition (z : ZoneRecord) (minPos maxPos : Nat) : Nat :=
  if z.served && z.serviceMode != .unused then
    minPos + (roundHalfUp (z.demand * (maxPos - minPos : Int)) 100).toNat
  else 0

/-- Whether a requested position is issued (R18). -/
def worthIssuing (last : Option Nat) (requested deadband : Nat) : Bool :=
  match last with
  | none => true
  | some l =>
    decide (deadband ≤ (max l requested - min l requested)) ||
      ((requested == 0 || requested == 100) && requested != l)

/-! ### Firing -/

/-- Firing is permitted (R164). -/
def firingPermitted (dump bypass : Bool) (pic : CallPicture) : Bool :=
  !dump && (List.finRange 16).any fun z => pic.served[z] && (pic.flowReady[z] || bypass)

/-- The heat request follows the firing state (R165). -/
def Firing.heatRequest (f : Firing) : Bool := f.state == .requesting || f.state == .firing

/-- The pump request (R178). -/
def Firing.pumpRequest (f : Firing) : Bool :=
  f.state != .linkDown &&
    (f.state == .requesting || f.state == .firing || f.state == .runout ||
      (f.state == .lockout && f.lockoutPumpTimer.isSome) || f.dump ||
      (List.finRange 16).any fun z => f.picture.frost[z])

/-- The flow setpoint computed at an exchange (R177). -/
def flowSetpoint (pic : CallPicture) (bypass : Bool) (minFlow maxFlow : Nat) : Nat :=
  let d := ((List.finRange 16).filter fun z => pic.served[z] && (pic.flowReady[z] || bypass)).foldl
    (fun m z => max m pic.demand[z]) 0
  (roundHalfUp (100 * minFlow + (maxFlow - minFlow : Int) * d) 100).toNat

/-- min_off has elapsed (R163). -/
def minOffElapsed (offSince : Option Nat) (minOff now : Nat) : Bool :=
  match offSince with
  | none => true
  | some t => t + minOff ≤ now

/-! ### Elapsed crystal time -/

/-- The tick at which so many milliseconds have passed since a tick. -/
def afterMs (since ms : Nat) : Nat := since + (ms * Config.hz + 999) / 1000

/-- Whole seconds for a duration in crystal periods; a part of a second is rounded by the free value
(log 10). -/
def wholeSeconds (ticks : Nat) : Nat :=
  ticks / Config.hz + (if ticks % Config.hz ≠ 0 ∧ Config.partSecondUp ticks = true then 1 else 0)

/-! ### Movements (R146, R147) -/

/-- The tick at which the movement of a MOVE_TO ends: |target − start| / 100 × full_stroke seconds. -/
def Movement.moveEnd (m : Movement) (startTick : Nat) : Nat :=
  match m.start with
  | some p => startTick + ((max p m.target - min p m.target) * m.stroke * Config.hz + 99) / 100
  | none => startTick

/-- The tick at which a SEEK_CLOSED has run 1.5 × full_stroke. -/
def Movement.seekEnd (m : Movement) (startTick : Nat) : Nat := startTick + (3 * m.stroke * Config.hz + 1) / 2

/-- Percent travelled in so many ticks, rounded to the nearest with halves towards the start. -/
def Movement.travelled (m : Movement) (ticks : Nat) : Nat := roundHalfDown (100 * ticks) (m.stroke * Config.hz)

/-- The estimate of a movement (R146, R147): none on a channel whose start position is unknown. -/
def Movement.estimate (m : Movement) (ticks : Nat) : Option Nat :=
  m.start.map fun p =>
    if p ≤ m.target then min m.target (p + m.travelled ticks) else max m.target (p - m.travelled ticks)

/-- The motor opens when the target is above the position (R146). -/
def Movement.opening (m : Movement) : Bool :=
  match m.start with
  | some p => decide (p < m.target)
  | none => false

/-- A channel's open_confirmed (R153). -/
def ChannelRecord.judgeOpen (c : ChannelRecord) (threshold : Nat) : Bool :=
  c.calibrated && c.state != .fault &&
    (match c.position with
      | some p => decide (threshold ≤ p)
      | none => false) &&
    (match c.inProgress with
      | some ⟨_, _, _, some m⟩ => decide (threshold ≤ m.target)
      | _ => true)

/-- The rest state (R135). -/
def ChannelRecord.restState (c : ChannelRecord) : ChannelState :=
  if c.zone = none then .unassigned else if c.calibrated then .idle else .uncalibrated

/-- The entry in progress came from the queue, where it stays at the head until it ends (R139). -/
def ChannelRecord.headStarted (c : ChannelRecord) : Bool :=
  match c.inProgress with
  | some ⟨.moveTo _ .urgent, _, _, _⟩ => false
  | some _ => true
  | none => false

/-! ### Units -/

/-- A unit ACTIVE in a zone and not faulty (R130). -/
def UnitRecord.eligible (u : UnitRecord) (z : Zone) : Bool :=
  !u.faulty &&
    (match u.state with
      | .active zone _ => zone == z
      | .pending => false)

def UnitRecord.isPanel (u : UnitRecord) : Bool :=
  match u.state with
  | .active _ .panel => true
  | _ => false

/-- The zone of an ACTIVE unit. -/
def UnitRecord.zone (u : UnitRecord) : Option Zone :=
  match u.state with
  | .active z _ => some z
  | .pending => none

/-- The freshness an age gives (R128). -/
def agedFreshness (cur : Freshness) (age staleAge lostAge : Nat) : Freshness :=
  match cur with
  | .lost => .lost
  | .stale => if lostAge ≤ age then .lost else .stale
  | .fresh => if lostAge ≤ age then .lost else if staleAge ≤ age then .stale else .fresh

/-! ### Contacts -/

/-- A level read by the polarity (R80); true is a high level. -/
def readContact (p : Polarity) (high : Bool) : ContactState :=
  match p, high with
  | .lowOpen, false => .isOpen
  | .lowOpen, true => .isClosed
  | .highOpen, true => .isOpen
  | .highOpen, false => .isClosed

/-! ### Backoff register (R110) -/

/-- One step: towards the most significant bit, bit 0 the exclusive-or of bits 15, 14, 12 and 3. -/
def lfsrStep (v : BitVec 16) : BitVec 16 :=
  (v <<< 1) |||
    BitVec.setWidth 16 (BitVec.ofBool (v.getLsbD 15 ^^ v.getLsbD 14 ^^ v.getLsbD 12 ^^ v.getLsbD 3))

/-- The register after so many periods of the crystal, period by period. -/
def lfsrIter : Nat → BitVec 16 → BitVec 16
  | 0, v => v
  | n + 1, v => lfsrIter n (lfsrStep v)

/-- A linear map given by its values on the 16 bits, the least significant first. -/
def lfsrApply : List (BitVec 16) → BitVec 16 → BitVec 16
  | [], _ => 0
  | c :: cs, v => (if v.getLsbD 0 then c else 0) ^^^ lfsrApply cs (v >>> 1)

/-- A step of the register as a linear map. -/
def lfsrColumns : List (BitVec 16) := (List.range 16).map fun i => lfsrStep (1 <<< i)

/-- The n-th power of a linear map applied to a value, by squaring; the first argument bounds the bits of n. -/
def lfsrPower : Nat → Nat → List (BitVec 16) → BitVec 16 → BitVec 16
  | 0, _, _, v => v
  | fuel + 1, n, m, v =>
    lfsrPower fuel (n / 2) (m.map (lfsrApply m)) (if n % 2 = 1 then lfsrApply m v else v)

/-- The register after so many periods: lfsrIter, computed by squaring (Laws.lfsrRun_eq_iter). -/
def lfsrRun (n : Nat) (v : BitVec 16) : BitVec 16 := lfsrPower (Nat.log2 n + 1) n lfsrColumns v

/-! ### The ring of the arbiter (R72) -/

/-- The requesters in the order they come after the parked one. -/
def Requester.ringAfter : Requester → List Requester
  | .portA => [.portB, .report, .contact, .clock, .portA]
  | .portB => [.report, .contact, .clock, .portA, .portB]
  | .report => [.contact, .clock, .portA, .portB, .report]
  | .contact => [.clock, .portA, .portB, .report, .contact]
  | .clock => [.portA, .portB, .report, .contact, .clock]

def WaitingSet.get (w : WaitingSet) : Requester → Option StoreReq
  | .portA => w.portA | .portB => w.portB | .report => w.report | .contact => w.contact | .clock => w.clock

def WaitingSet.set (w : WaitingSet) (q : Requester) (r : Option StoreReq) : WaitingSet :=
  match q with
  | .portA => { w with portA := r }
  | .portB => { w with portB := r }
  | .report => { w with report := r }
  | .contact => { w with contact := r }
  | .clock => { w with clock := r }

end Sys2Proof.Machine

namespace Sys2Proof

/-- A port's place in the arbiter's ring (R71). -/
def Port.requester : Port → Machine.Requester
  | .A => .portA | .B => .portB

/-- "The other port" of a port (00 section 4.2). -/
def Port.other : Port → Port
  | .A => .B | .B => .A

/-- The first identifying value of a request's body, as given (R193). -/
def HostReq.subject : HostReq → Option Byte
  | .readZone z => some z
  | .setZone z .. => some z
  | .scheduleInsert z .. => some z
  | .scheduleDelete z _ => some z
  | .scheduleLoad z _ => some z
  | .scheduleRead z _ => some z
  | .claim t => some t
  | .release t => some t
  | .pushHold z .. => some z
  | .cancelHold z => some z
  | .cancelBoost z => some z
  | .unitAdmit i .. => some i
  | .unitRemove i => some i
  | .unitRead i => some i
  | .valveAssign c .. => some c
  | .valveService c _ => some c
  | .valveClear c => some c
  | .valveRead c => some c
  | .identify | .setTime .. | .releaseTime | .readTime | .configure _ | .readConfig | .firingRead
  | .clearLockout | .noticeMask .. | .faultRead _ | .portReset => none

end Sys2Proof
end

