-- ==== Sys2Proof/Machine/Ops.lean ====
section
/-! DEFINITION. The operations all blocks share: crystal time, the records of the state, notices offered to
the ports, replies and the fault record, the waiting set. A block has no exception entry; raising a notice
and recording a refusal are what the device does in its place. -/

namespace Sys2Proof.Machine

/-! ### Time -/

/-- The count of second events since device reset: one for each second of crystal time (R23). -/
def State.now (s : State) : Nat := s.clock.ticks / Config.hz

/-- The crystal runs on to a tick, if that lies ahead; the backoff register takes a step at every period
(R110). -/
def runTo (t : Nat) (s : State) : State :=
  if s.clock.ticks < t then
    { s with
      clock := { s.clock with ticks := t }
      bus := { s.bus with backoffReg := lfsrRun (t - s.clock.ticks) s.bus.backoffReg } }
  else s

/-! ### Records of the state -/

def State.port (s : State) : Port → PortState
  | .A => s.portA
  | .B => s.portB

/-- The attention output is low while the reply slot is full or an enabled notice is queued (R189). -/
def PortState.attentionNeeded (p : PortState) : Bool :=
  p.reply.isSome || p.notices.any fun n => p.mask[n.kind.number]

/-- The level follows at every event (R189). -/
def PortState.judged (p : PortState) : PortState := { p with attentionLow := p.attentionNeeded }

/-- Every write of a port's state goes through here, so that its attention output is judged again. -/
def State.modPort (s : State) (p : Port) (f : PortState → PortState) : State :=
  match p with
  | .A => { s with portA := (f s.portA).judged }
  | .B => { s with portB := (f s.portB).judged }

def State.modZone (s : State) (z : Zone) (f : ZoneRecord → ZoneRecord) : State :=
  { s with zones := s.zones.set z (f s.zones[z]) }

def State.channel (s : State) (c : Channel) : ChannelRecord := s.valves.channels[c]

def State.modChannel (s : State) (c : Channel) (f : ChannelRecord → ChannelRecord) : State :=
  { s with valves := { s.valves with channels := s.valves.channels.set c (f s.valves.channels[c]) } }

def State.modStack (s : State) (z : Zone) (f : Stack → Stack) : State :=
  { s with store := { s.store with overrides := s.store.overrides.set z (f s.store.overrides[z]) } }

def State.setClaim (s : State) (c : ClaimIx) (h : Option Held) : State :=
  { s with store := { s.store with claims := s.store.claims.set c h } }

def State.setUnit (s : State) (u : UnitIx) (r : Option UnitRecord) : State :=
  { s with report := { s.report with registry := s.report.registry.set u r } }

/-- The port holds the claim (R63). -/
def State.holds (s : State) (p : Port) (c : ClaimIx) : Bool :=
  match s.store.claims[c] with
  | some h => h.holder == p
  | none => false

def configClaim : ClaimIx := 16

def zoneClaim (z : Zone) : ClaimIx := z.castSucc

/-! ### Notices (R190, R191) -/

/-- A copy offered to a port: masked off, queued, or dropped with notices_lost set. -/
def PortState.offer (n : Notice) (p : PortState) : PortState :=
  if p.mask[n.kind.number] then
    if p.notices.length < Config.noticeMax then { p with notices := p.notices ++ [n] }
    else { p with noticesLost := true }
  else p

/-- Raising a notice to one port. -/
def raiseTo (p : Port) (kind : NoticeKind) (subject : Subject) (detail : List Byte) (s : State) : State :=
  s.modPort p (PortState.offer ⟨kind, subject, s.now, detail⟩)

/-- Raising a notice to both ports. -/
def raise (kind : NoticeKind) (subject : Subject) (detail : List Byte) (s : State) : State :=
  raiseTo .B kind subject detail (raiseTo .A kind subject detail s)

/-! ### Replies and refusals (R187, R193) -/

/-- A refusal is written to an empty fault record, or counted (R193). -/
def PortState.recordRefusal (kind : Option Byte) (st : Status) (subject : Option Byte) (now : Nat)
    (p : PortState) : PortState :=
  match p.fault with
  | none => { p with fault := some ⟨kind, st, subject, now, 0⟩ }
  | some f => { p with fault := some { f with later := min 255 (f.later + 1) } }

/-- A reply placed in the reply slot; a status other than OK is a refusal (R187, R193). -/
def PortState.placeReply (r : Reply) (subject : Option Byte) (now : Nat) (p : PortState) : PortState :=
  let p := { p with reply := some r, request := .replyReady }
  if r.status = .ok then p else p.recordRefusal r.kind r.status subject now

/-! ### The waiting set (R71) -/

/-- The claim a waiting request of a port needs, if it is one of the requests of section 4.3 (R69). -/
def StoreReq.needs : StoreReq → Option (Port × ClaimIx)
  | .check p _ c => some (p, c)
  | .host p r =>
    match r with
    | .setZone z .. => (zone? z).map fun z => (p, zoneClaim z)
    | .scheduleInsert z .. => (zone? z).map fun z => (p, zoneClaim z)
    | .scheduleDelete z _ => (zone? z).map fun z => (p, zoneClaim z)
    | .scheduleLoad z _ => (zone? z).map fun z => (p, zoneClaim z)
    | .configure _ => some (p, configClaim)
    | _ => none
  | _ => none

/-- The claim a CLAIM asks for, with its port (R64). -/
def StoreReq.asks : StoreReq → Option (Port × ClaimIx)
  | .host p (.claim t) => (claim? t).map fun c => (p, c)
  | _ => none

/-- A CLAIM of the port for the claim waits or is being carried out (04 section 4.2). -/
def State.claimUnderWay (s : State) (p : Port) (c : ClaimIx) : Bool :=
  (s.arbiter.waiting.get p.requester).any (fun r => r.asks == some (p, c)) ||
    s.arbiter.carrying.any fun k => k.req.asks == some (p, c)

/-- A request freezes the claim it needs when its port holds it (R68). -/
def freeze (r : StoreReq) (s : State) : State :=
  match r.needs with
  | some (p, c) =>
    match s.store.claims[c] with
    | some h => if h.holder = p then s.setClaim c (some { h with frozen := true }) else s
    | none => s
  | none => s

def State.setWaiting (s : State) (q : Requester) (r : Option StoreReq) : State :=
  { s with arbiter := { s.arbiter with waiting := s.arbiter.waiting.set q r } }

/-- A request joins the waiting set in its requester's place (R71), freezing its claim (R68). -/
def joinWaiting (q : Requester) (r : StoreReq) (s : State) : State :=
  freeze r (s.setWaiting q (some r))

/-- At the completion of a request that used a claim its count restarts from claim_lapse and it thaws (R67). -/
def restartClaim (p : Port) (c : ClaimIx) (s : State) : State :=
  match s.store.claims[c] with
  | some h =>
    if h.holder = p then s.setClaim c (some { h with remaining := s.written.claimLapse, frozen := false }) else s
  | none => s

/-- An owner's reply reaches the port (R187): placed in the reply slot, or thrown away when the port's reset
is pending on it; the reset's store step is then placed (R75, R199). The request slot keeps the completed request
until the port-local part empties it (log 38). -/
def deliver (p : Port) (st : Status) (body : List Byte) (s : State) : State :=
  if (s.port p).discard then
    joinWaiting p.requester (.resetStep p) (s.modPort p fun ps => { ps with discard := false })
  else
    let r := (s.port p).slot
    s.modPort p (PortState.placeReply ⟨r.map HostReq.kind, st, body⟩ (r.bind HostReq.subject) s.now)

/-! ### Measure of work given by the other blocks -/

/-- The Demand Unit is given a zone event (R8); it merges with one already waiting, and is discarded before
the first loop event (R9). -/
def giveZoneEvent (z : Zone) (s : State) : State :=
  if s.demand.loopRan ∧ z ∉ s.demand.zoneEvents then
    { s with demand := { s.demand with zoneEvents := s.demand.zoneEvents ++ [z] } }
  else s

/-- Carrying out an operation for each member of a list, in order. -/
def forEach {α : Type} (l : List α) (f : α → State → State) (s : State) : State :=
  l.foldl (fun s x => f x s) s

def allZones : List Zone := List.finRange 16

def allChannels : List Channel := List.finRange 24

def allUnits : List UnitIx := List.finRange 32

def allClaims : List ClaimIx := List.finRange 17

end Sys2Proof.Machine
end

