-- ==== Sys2Proof/Machine/FiringOps.lean ====
section
/-! DEFINITION. The Firing Controller's shared operations (chapter 9): changes of firing state, the test of
firing permitted, runout, and the events handed over by the Demand Unit and the Valve Drive Unit. -/

namespace Sys2Proof.Machine

def State.modFiring (s : State) (f : Firing → Firing) : State := { s with firing := f s.firing }

/-- A change of firing_state: state_entered is set, off_since when the heat request goes off (R163, R165),
and FIRING_STATE is raised with the fault code for entry into LOCKOUT (R176). -/
def changeFiring (new : FiringState) (cause : Cause) (faultCode : List Byte) (s : State) : State :=
  let old := s.firing
  let s := s.modFiring fun f => { f with state := new, stateEntered := s.now }
  let s :=
    if old.heatRequest ∧ s.firing.heatRequest = false then
      s.modFiring fun f => { f with offSince := some s.now }
    else s
  raise .firingState .none ([old.state.code, new.code, cause.code] ++ faultCode) s

def State.permitted (s : State) : Bool := firingPermitted s.firing.dump s.taken.bypassEnable s.firing.picture

def State.minOffDone (s : State) : Bool := minOffElapsed s.firing.offSince s.taken.minOff s.now

/-- The test in OFF: firing found permitted moves the state to REQUESTING (R166). -/
def testInOff (s : State) : State :=
  if s.permitted then changeFiring .requesting .permitted [] s else s

/-- Entering OFF is itself a test (R166). -/
def enterOff (cause : Cause) (s : State) : State := testInOff (changeFiring .off cause [] s)

/-- Passing to ANTICYCLE, or to OFF when min_off has already elapsed (R169). -/
def enterAnticycle (cause : Cause) (s : State) : State :=
  if s.minOffDone then enterOff cause s else changeFiring .anticycle cause [] s

/-- The runout timer runs out (R168). -/
def endRunout (s : State) : State :=
  let skip := s.firing.frostSkip
  let s := s.modFiring fun f => { f with runoutSet := [], runoutTimer := none, frostSkip := false }
  if skip || s.minOffDone then enterOff .runoutEnd s else changeFiring .anticycle .runoutEnd [] s

/-- The zones of the previous served set that are flow_ready (R167). -/
def runoutSetOf (prevServed flowReady : Vector Bool 16) : List Zone :=
  allZones.filter fun z => prevServed[z] && flowReady[z]

/-- Passing to RUNOUT (R167), given the previous served set and flow_ready as the event is taken; a
runout_time of 0 ends it at the same event. -/
def enterRunout (cause : Cause) (prevServed flowReady : Vector Bool 16) (s : State) : State :=
  let s := changeFiring .runout cause [] s
  let s := s.modFiring fun f =>
    { f with
      runoutSet := runoutSetOf prevServed flowReady
      runoutTimer := some (s.clock.ticks + s.taken.runoutTime * Config.hz)
      frostSkip := false }
  if s.taken.runoutTime = 0 then endRunout s else s

/-- The test of firing permitted (R164, R166, R167). While the dump flag is set in REQUESTING or FIRING the
STATUS that set it is still being taken, and its own step 4 makes the test (R179, log 9). -/
def testPermitted (prevServed : Vector Bool 16) (s : State) : State :=
  match s.firing.state with
  | .off => testInOff s
  | .requesting | .firing =>
    if s.permitted || s.firing.dump then s
    else enterRunout .notPermitted prevServed s.firing.picture.flowReady s
  | _ => s

/-- A written flow_ready is handed over; the previous served set is the present one (R164). -/
def takeFlowReady (z : Zone) (ready : Bool) (s : State) : State :=
  let s := s.modFiring fun f => { f with picture := { f.picture with flowReady := f.picture.flowReady.set z ready } }
  testPermitted s.firing.picture.served s

/-- The call update (R164): list, served set, demands and emergencies, all together. -/
def callUpdate (s : State) : State :=
  let prev := s.firing.picture.served
  let s := s.modFiring fun f =>
    { f with picture :=
      { f.picture with
        list := s.demand.heatList
        served := s.zones.map (·.served)
        demand := s.zones.map (·.demand)
        frost := s.zones.map (·.frostEmergency) } }
  testPermitted prev s

/-- A zone has entered frost emergency (R170). -/
def frostEvent (s : State) : State :=
  match s.firing.state with
  | .anticycle => enterOff .frost s
  | .runout => s.modFiring fun f => { f with frostSkip := true }
  | _ => s

/-- What leaving RUNOUT for LOCKOUT or LINK_DOWN clears (R171, R174). -/
def stopRunout (s : State) : State :=
  s.modFiring fun f => { f with runoutSet := [], runoutTimer := none, frostSkip := false }

/-- Entry into LOCKOUT (R171). A lockout pump timer started at a runout_time of 0 has run out at once, as a
runout timer has (R167). -/
def enterLockout (faultCode : Byte) (s : State) : State :=
  let timer :=
    match s.firing.state with
    | .requesting | .firing =>
      if s.taken.runoutTime = 0 then none else some (s.clock.ticks + s.taken.runoutTime * Config.hz)
    | .runout => s.firing.runoutTimer
    | _ => none
  let s := (stopRunout s).modFiring fun f => { f with lockoutPumpTimer := timer }
  changeFiring .lockout .lockout [faultCode] s

/-- The link is declared DOWN (R174). -/
def enterLinkDown (s : State) : State :=
  let s := (stopRunout s).modFiring fun f => { f with lockoutPumpTimer := none }
  changeFiring .linkDown .linkDown [] s

/-- A new min_off compared against off_since in ANTICYCLE (R169). -/
def judgeMinOff (s : State) : State :=
  if s.firing.state = .anticycle ∧ s.minOffDone then enterOff .minOff s else s

end Sys2Proof.Machine
end

