-- ==== Sys2Proof/Machine/ValveOps.lean ====
section
/-! DEFINITION. The Valve Drive Unit's shared operations (chapter 8): open-confirmed and flow-readiness,
take-up, slot grants, the end of a movement, flush, urgent entries and loop moves; with what the Demand Unit
is told (R152). -/

namespace Sys2Proof.Machine

/-! ### What the Demand Unit is told (R19, R152) -/

def State.setIssued (s : State) (c : Channel) (p : Option Nat) : State :=
  { s with demand := { s.demand with lastIssued := s.demand.lastIssued.set c p } }

/-- A change of zone, a flush, a SEEK_CLOSED started, or UNCALIBRATED or FAULT entered: the last issued
position becomes none (R19). -/
def forgetIssued (c : Channel) (s : State) : State := s.setIssued c none

/-- A movement is started at an effective target (R19). -/
def tellStart (c : Channel) (target : Nat) (s : State) : State :=
  if s.demand.lastIssued[c] = some target then s else s.setIssued c none

/-! ### Open-confirmed and flow-readiness (R153, R154) -/

/-- flow_ready of a zone is written when it changes, and handed to the Firing Controller (R154, R164). -/
def writeFlowReady (z : Zone) (s : State) : State :=
  let ready := allChannels.any fun c => (s.channel c).zone = some z && (s.channel c).openConfirmed
  if s.zones[z].flowReady = ready then s
  else takeFlowReady z ready (s.modZone z fun r => { r with flowReady := ready })

/-- open_confirmed judged again, without the zone's flow_ready. -/
def judgeOpenOnly (c : Channel) (s : State) : State :=
  s.modChannel c fun r => { r with openConfirmed := r.judgeOpen s.taken.openThreshold }

/-- open_confirmed judged again at an event of the channel, and its zone's flow_ready written (R153). -/
def judgeOpen (c : Channel) (s : State) : State :=
  let s := judgeOpenOnly c s
  match (s.channel c).zone with
  | some z => writeFlowReady z s
  | none => s

/-- valve_count of a zone (R137). -/
def writeValveCount (z : Zone) (s : State) : State :=
  s.modZone z fun r => { r with valveCount := (allChannels.filter fun c => (s.channel c).zone = some z).length }

/-! ### Effective target (R145) -/

/-- A LOOP move of a channel of a zone in the runout set is clamped at open_threshold during RUNOUT. -/
def effectiveTarget (s : State) (c : Channel) (position : Nat) (origin : Origin) : Nat :=
  match (s.channel c).zone with
  | some z =>
    if origin = .loop ∧ s.firing.state = .runout ∧ z ∈ s.firing.runoutSet ∧ position < s.taken.openThreshold then
      s.taken.openThreshold
    else position
  | none => position

/-! ### Take-up (R142) -/

def State.setList (s : State) (l : List Channel) : State :=
  { s with valves := { s.valves with waiting := l } }

/-- Joining the slot waiting list: at the head for an urgent entry, else at the tail (R143). -/
def joinList (c : Channel) (urgent : Bool) (s : State) : State :=
  let s := s.modChannel c fun r => { r with state := .waiting }
  s.setList (if urgent then c :: s.valves.waiting else s.valves.waiting ++ [c])

/-- A channel with no work left takes its rest state (R135). -/
def rest (c : Channel) (s : State) : State := s.modChannel c fun r => { r with state := r.restState }

def markDone : Byte := 0

def markAborted : Byte := 1

def raiseMark (c : Channel) (owner : Port) (tag outcome : Byte) (s : State) : State :=
  raiseTo owner .valveMark (.channel c) [tag, outcome] s

/-- Take-up of a channel that has no entry in progress, is not WAITING and is not in FAULT. The first
argument bounds the entries looked at. -/
def takeUpLoop : Nat → Channel → State → State
  | 0, _, s => s
  | fuel + 1, c, s =>
    let r := s.channel c
    match r.urgent with
    | some target =>
      if r.position = some target then
        takeUpLoop fuel c (s.modChannel c fun r => { r with urgent := none })
      else joinList c true s
    | none =>
      match r.queue with
      | [] => rest c s
      | .mark owner tag :: q =>
        takeUpLoop fuel c (raiseMark c owner tag markDone (s.modChannel c fun r => { r with queue := q }))
      | .dwell d :: _ =>
        s.modChannel c fun r =>
          { r with state := .dwelling, inProgress := some ⟨.dwell d, s.clock.ticks, s.now, none⟩ }
      | .moveTo p origin :: q =>
        if r.position = some (effectiveTarget s c p origin) then
          takeUpLoop fuel c (s.modChannel c fun r => { r with queue := q })
        else joinList c false s
      | .seekClosed :: _ => joinList c false s

/-- Take-up, through the whole queue if need be. -/
def takeUpOnly (c : Channel) (s : State) : State := takeUpLoop ((s.channel c).queue.length + 2) c s

/-! ### Slot grants (R143, R146) -/

/-- The lowest-numbered free slot. -/
def State.freeSlot (s : State) : Option Slot := (List.finRange 3).find? fun i => s.valves.slots[i] = none

def State.setSlot (s : State) (i : Slot) (c : Option Channel) : State :=
  { s with valves := { s.valves with slots := s.valves.slots.set i c } }

/-- The movement driven in a slot (R143). -/
def State.slotMovement (s : State) (i : Slot) : Option Movement :=
  s.valves.slots[i].bind fun c => (s.channel c).inProgress.bind (·.move)

/-- The open output DOn and the close output DCn of slot n (R143, R146): the one of the motor's direction is driven
while the slot is in use, and both are released otherwise. -/
def State.driveOpen (s : State) (i : Slot) : Bool := (s.slotMovement i).any Movement.opening

def State.driveClose (s : State) (i : Slot) : Bool := (s.slotMovement i).any fun m => !m.opening

/-- The select output VSc of a channel connects its motor while the channel holds a drive slot (R143). -/
def State.selectOut (s : State) (c : Channel) : Bool :=
  (List.finRange 3).any fun i => s.valves.slots[i] = some c

/-- A movement of a channel starts in a slot it has been given (R146): recorded in in_progress, told to the
Demand Unit (R152), open_confirmed judged again (R153). -/
def startMovement (c : Channel) (slot : Slot) (entry : Entry) (target : Nat) (s : State) : State :=
  let s := s.modChannel c fun r =>
    { r with
      state := .moving
      inProgress := some ⟨entry, s.clock.ticks, s.now, some ⟨r.position, target, slot, r.fullStroke⟩⟩ }
  let s := if entry = .seekClosed then forgetIssued c s else tellStart c target s
  judgeOpen c s

/-- The entry a WAITING channel is to start, with its effective target: the urgent entry, else the head of
its queue (R143, R151). No rule names an effective target of a SEEK_CLOSED, and it is recorded with 0 (log 51). -/
def waitingEntry (s : State) (c : Channel) : Option (Entry × Nat) :=
  match (s.channel c).urgent with
  | some p => some (.moveTo p .urgent, p)
  | none =>
    match (s.channel c).queue with
    | .moveTo p origin :: _ => some (.moveTo p origin, effectiveTarget s c p origin)
    | .seekClosed :: _ => some (.seekClosed, 0)
    | _ => none

/-- An entry that ends leaves the queue, or the urgent slot is emptied. -/
def dropEntry (e : Entry) (r : ChannelRecord) : ChannelRecord :=
  match e with
  | .moveTo _ .urgent => { r with urgent := none }
  | _ => { r with queue := r.queue.tail }

/-- The head of the waiting list is tested at a free slot: completed without movement, or started. An urgent entry
leaves the urgent slot as its movement starts (log 33). -/
def grantHead (c : Channel) (slot : Slot) (s : State) : State :=
  match waitingEntry s c with
  | some (e, target) =>
    if e ≠ .seekClosed ∧ (s.channel c).position = some target then
      takeUpOnly c (rest c (s.modChannel c (dropEntry e)))
    else
      let s := match e with
        | .moveTo _ .urgent => s.modChannel c fun r => { r with urgent := none }
        | _ => s
      startMovement c slot e target (s.setSlot slot (some c))
  | none => takeUpOnly c (rest c s)

/-- While a slot is free and the list is not empty the head is tested (R143). The first argument bounds the
tests. -/
def grantLoop : Nat → State → State
  | 0, s => s
  | fuel + 1, s =>
    match s.freeSlot, s.valves.waiting with
    | some slot, c :: rest => grantLoop fuel (grantHead c slot (s.setList rest))
    | _, _ => s

/-- Entries that may still be looked at: those of every queue and urgent slot. -/
def State.entryCount (s : State) : Nat :=
  allChannels.foldl (fun n c => n + (s.channel c).queue.length + 1) 0

/-- Slots are granted at every event that frees a slot or adds a channel to the list. -/
def grantSlots (s : State) : State := grantLoop (s.entryCount + 4) s

/-- Take-up at an event, with the grant that may follow. -/
def takeUp (c : Channel) (s : State) : State := grantSlots (takeUpOnly c s)

/-- Take-up when the channel may take up work at all (R142): nothing in progress, not WAITING, not in FAULT. -/
def takeUpIfAble (c : Channel) (s : State) : State :=
  let r := s.channel c
  if r.inProgress.isNone ∧ r.state ≠ .waiting ∧ r.state ≠ .fault then takeUp c s else s

/-! ### Ends of movements (R146 to R149) -/

/-- A movement ends at a position: the slot is freed and granted anew, the position set, the entry removed,
open_confirmed judged, and take-up goes on. A SEEK_CLOSED calibrates a channel that has a zone (R147). -/
def endMovement (c : Channel) (position : Nat) (s : State) : State :=
  match (s.channel c).inProgress with
  | some ⟨e, _, _, some m⟩ =>
    let s := grantSlots (s.setSlot m.slot none)
    let s := s.modChannel c fun r =>
      let r := { r with
        position := some position
        lastMoved := some s.now
        inProgress := none
        calibrated := r.calibrated || (e == Entry.seekClosed && r.zone.isSome) }
      let r := match e with
        | .moveTo _ .urgent => r
        | _ => { r with queue := r.queue.tail }
      { r with state := r.restState }
    takeUp c (judgeOpen c s)
  | _ => s

/-- The VALVE_MARK notices of the MARKs a flush removes, in queue order (R138). -/
def abortMarks (c : Channel) (s : State) : State :=
  forEach (s.channel c).queue
    (fun e s => match e with
      | .mark owner tag => raiseMark c owner tag markAborted s
      | _ => s) s

/-- A flush (R138): queue, urgent slot and DWELL go, the channel leaves the waiting list, and the Demand Unit
is told. The state is given by the rule that flushed it. -/
def flush (c : Channel) (s : State) : State :=
  let s := abortMarks c s
  let s := s.modChannel c fun r => { r with queue := [], urgent := none, inProgress := none }
  forgetIssued c (s.setList (s.valves.waiting.filter fun x => x ≠ c))

/-- The direction of a movement as notices and replies give it: opening 0, closing 1. -/
def directionCode (m : Movement) : Byte := if m.opening then 0 else 1

/-- A jam (R149). -/
def jam (c : Channel) (m : Movement) (estimate : Nat) (s : State) : State :=
  let zone := (s.channel c).zone
  let s := grantSlots (s.setSlot m.slot none)
  let s := s.modChannel c fun r =>
    if r.headStarted then { r with queue := r.queue.tail, inProgress := none } else { r with inProgress := none }
  let s := flush c s
  let s := s.modChannel c fun r =>
    { r with state := .fault, calibrated := false, position := none, lastMoved := some s.now }
  let s := judgeOpen c (forgetIssued c s)
  raise .valveJam (.channel c) [encFinOpt zone, directionCode m, enc8 m.target, enc8 estimate] s

/-! ### Urgent entries (R150, R151) -/

/-- An urgent entry on a MOVING channel: the movement stops at its estimate, its entry is discarded, and the
urgent movement starts from there in the same slot, or completes at once; the urgent slot is empty from then on
(log 33). An urgent entry that completes at once has open_confirmed judged before its slot is freed and granted anew
(log 41), and the last issued position stays as it stood, since no movement starts (log 48). -/
def preempt (c : Channel) (p : InProgress) (m : Movement) (target : Nat) (s : State) : State :=
  let s := s.modChannel c fun r =>
    let r := if r.headStarted then { r with queue := r.queue.tail } else r
    { r with
      position := m.estimate (s.clock.ticks - p.startTick)
      lastMoved := some s.now
      inProgress := none
      urgent := none }
  if (s.channel c).position = some target then
    let s := judgeOpen c (rest c s)
    takeUp c (grantSlots (s.setSlot m.slot none))
  else startMovement c m.slot (.moveTo target .urgent) target s

/-- An urgent MOVE_TO placed in a channel (R150, R151). -/
def placeUrgent (target : Nat) (c : Channel) (s : State) : State :=
  let r := s.channel c
  if r.calibrated = false ∨ r.state = .fault then s
  else
    let s := s.modChannel c fun r => { r with urgent := some target }
    match r.state, r.inProgress with
    | .moving, some ⟨e, t, u, some m⟩ => preempt c ⟨e, t, u, some m⟩ m target s
    | .waiting, _ => grantSlots (s.setList (c :: s.valves.waiting.filter fun x => x ≠ c))
    | .dwelling, _ =>
      takeUp c (s.modChannel c fun r => { r with queue := r.queue.tail, inProgress := none, state := r.restState })
    | _, _ => takeUp c s

/-! ### Queue entries (R139 to R141) -/

/-- The first LOOP entry's position replaced, in place. -/
def replaceLoop (position : Nat) : List Entry → Option (List Entry)
  | [] => none
  | .moveTo _ .loop :: rest => some (.moveTo position .loop :: rest)
  | e :: rest => (replaceLoop position rest).map (e :: ·)

/-- The queue with its unstarted LOOP entry replaced, if it holds one (R139, R140). -/
def ChannelRecord.replaceUnstarted (r : ChannelRecord) (position : Nat) : Option (List Entry) :=
  let n := if r.headStarted then 1 else 0
  (replaceLoop position (r.queue.drop n)).map (r.queue.take n ++ ·)

/-- A loop move placed by the first case of R140; acceptance reaches the Demand Unit before any start (R19,
R152). -/
def placeLoopMove (c : Channel) (position : Nat) (s : State) : State :=
  let r := s.channel c
  if r.zone = none ∨ r.calibrated = false ∨ r.state = .fault then s
  else
    match r.replaceUnstarted position with
    | some q => (s.modChannel c fun r => { r with queue := q }).setIssued c (some position)
    | none =>
      if r.queue.length < Config.commandMax then
        takeUpIfAble c
          ((s.modChannel c fun r => { r with queue := r.queue ++ [.moveTo position .loop] }).setIssued c
            (some position))
      else s

/-- Entries appended at the tail, with take-up of a channel at rest (R141, R157). -/
def appendEntries (c : Channel) (entries : List Entry) (s : State) : State :=
  takeUpIfAble c (s.modChannel c fun r => { r with queue := r.queue ++ entries })

/-- UNCALIBRATED entered: the Demand Unit is told, a SEEK_CLOSED is queued and taken up at once (R137, R155). -/
def enterUncalibrated (c : Channel) (s : State) : State :=
  let s := s.modChannel c fun r => { r with state := .uncalibrated, calibrated := false }
  appendEntries c [.seekClosed] (forgetIssued c s)

/-! ### Assignment (R137) -/

/-- The state a channel takes with its new zone, before any SEEK_CLOSED is queued. -/
def ChannelRecord.rezoned (r : ChannelRecord) : ChannelRecord :=
  match r.zone with
  | none => { r with state := .unassigned, calibrated := false, position := none }
  | some _ =>
    if r.state = .fault then r
    else if r.calibrated then { r with state := .idle }
    else { r with state := .uncalibrated }

/-- valve_count and flow_ready of a zone left or joined. -/
def writeZoneOf (z : Option Zone) (s : State) : State :=
  match z with
  | some z => writeFlowReady z (writeValveCount z s)
  | none => s

/-- A VALVE_ASSIGN that passed its checks (R137). -/
def assign (c : Channel) (zone : Option Zone) (fullStroke minPos maxPos : Nat) (s : State) : State :=
  let old := (s.channel c).zone
  let settings := fun r : ChannelRecord => { r with fullStroke := fullStroke, minPos := minPos, maxPos := maxPos }
  if old = zone then s.modChannel c settings
  else
    let s := (flush c s).modChannel c fun r => (settings { r with zone := zone }).rezoned
    let s := writeZoneOf zone (writeZoneOf old (judgeOpenOnly c s))
    if (s.channel c).state = .uncalibrated then enterUncalibrated c s else s

/-- The claim VALVE_SERVICE needs (R141). -/
def claimOfChannel (c : Channel) (s : State) : ClaimIx :=
  match (s.channel c).zone with
  | some z => zoneClaim z
  | none => configClaim

end Sys2Proof.Machine
end

