-- ==== Sys2Proof/Machine/BurnerEvents.lean ====
section
/-! DEFINITION. The Burner Link's exchange and the Firing Controller's own timers (chapter 9, R202). -/

namespace Sys2Proof.Machine

def State.modLink (s : State) (f : BurnerLink → BurnerLink) : State := { s with link := f s.link }

/-! ### The exchange (R160) -/

/-- The DEMAND contents as they stand (R160, R177). -/
def State.demandNow (s : State) : DemandFrame where
  heatRequest := s.firing.heatRequest
  pumpRequest := s.firing.pumpRequest
  resetRequest := s.firing.pendingReset
  setpoint := flowSetpoint s.firing.picture s.taken.bypassEnable s.taken.minFlow s.taken.maxFlow

/-- The exchange timer expires: the contents are taken, the pending reset cleared, BLDIR turned, the next
exchange set one link_period after this one (R159, R160). -/
def startExchange (s : State) : State :=
  let d := s.demandNow
  let s := s.modFiring fun f => { f with setpoint := d.setpoint, pendingReset := false }
  s.modLink fun l =>
    { l with
      nextExchange := l.nextExchange + s.taken.linkPeriod * Config.hz
      exchange := .sending
      demand := some d
      bldir := .towardsBoiler }

/-- EXCHANGE (R160): no exchange is open when the next is due (R159). -/
def execExchange (s : State) : Host.Outcome State Fault Refusal :=
  .next (if s.link.exchange = .none then startExchange (runTo s.link.nextExchange s) else s)

/-- The levels BLTX carries from the start of an exchange to the end of its DEMAND, one a bit time; it rests at all
other times (R160, R202). -/
def State.linkLevels (s : State) : List Bool :=
  match s.link.exchange, s.link.demand with
  | .sending, some d => d.levels
  | _, _ => []

/-- DEMAND_SENT (R160): the reply window opens. -/
def execDemandSent (s : State) : Host.Outcome State Fault Refusal :=
  .next
    (if s.link.exchange = .sending then
      s.modLink fun l => { l with bldir := .towardsPart, exchange := .window s.clock.ticks, rx := .quiet }
    else s)

/-- The tick at which the reply window ends, 400 ms after the DEMAND's last byte. -/
def BurnerLink.windowEnd (l : BurnerLink) : Option Nat :=
  match l.exchange with
  | .window since => some (afterMs since 400)
  | _ => none

/-- Whether the reply window is open. -/
def State.windowOpen (s : State) : Bool := s.link.windowEnd.any fun t => decide (s.clock.ticks ≤ t)

def State.setLinkRx (s : State) (rx : LinkRx) : State := s.modLink fun l => { l with rx := rx }

/-- The tick at which 10 ms have passed since the last byte of a frame or of a discard (R202). -/
def LinkRx.gapEnd : LinkRx → Option Nat
  | .quiet => none
  | .frame _ last => some (afterMs last 10)
  | .discarding last => some (afterMs last 10)

/-- 10 ms pass without a byte: a frame being assembled is abandoned, a discard ends, and the next byte begins a new
frame (R202). -/
def afterQuiet (s : State) : State :=
  match s.link.rx.gapEnd with
  | some t => (runTo t s).setLinkRx .quiet
  | none => s

/-! ### A good STATUS (R175) -/

/-- Step 1, and the end of the exchange: the last status and its arrival (R161). -/
def keepStatus (b : BoilerStatus) (s : State) : State :=
  s.modLink fun l => { l with exchange := .none, rx := .quiet, lastStatus := some ⟨b, s.now⟩ }

/-- Step 2: the miss count returns to 0; a link that was DOWN recovers (R162, R174). -/
def recoverLink (b : BoilerStatus) (s : State) : State :=
  let missed := s.link.missCount
  let up := s.link.up
  let s := s.modLink fun l => { l with missCount := 0, up := true }
  if up then s
  else
    let s := raise .linkUp .none [enc8 missed] s
    if b.lockout = false ∧ s.firing.state = .linkDown then enterAnticycle .linkUp s else s

/-- Step 3: entry into LOCKOUT, or leaving it (R171, R172). -/
def judgeLockout (b : BoilerStatus) (s : State) : State :=
  match b.lockout, s.firing.state with
  | true, .lockout => s
  | true, _ => enterLockout b.faultCode s
  | false, .lockout => enterAnticycle .lockoutCleared (s.modFiring fun f => { f with lockoutPumpTimer := none })
  | false, _ => s

def dumpStarted : Byte := 0

def dumpEnded : Byte := 1

/-- The calibrated assigned channels, in increasing number (R179). -/
def State.dumpChannels (s : State) : List Channel :=
  allChannels.filter fun c => (s.channel c).zone.isSome && (s.channel c).calibrated

/-- The test of step 4 with the dump flag set (R167, R179). -/
def dumpTest (flowReady : Vector Bool 16) (s : State) : State :=
  match s.firing.state with
  | .requesting | .firing => enterRunout .dump s.firing.picture.served flowReady s
  | _ => s

/-- A heat dump starts (R179), steps 1 to 4; the runout set holds the zones flow_ready before the urgent
movements (log 9). -/
def startDump (flow : Nat) (s : State) : State :=
  let ready := s.firing.picture.flowReady
  let s := s.modFiring fun f => { f with dump := true }
  let s := forEach s.dumpChannels (placeUrgent 100) s
  dumpTest ready (raise .heatDump .none [dumpStarted, enc8 flow] s)

/-- A heat dump ends (R180). -/
def endDump (flow : Nat) (s : State) : State :=
  let s := s.modFiring fun f => { f with dump := false }
  let s := raise .heatDump .none [dumpEnded, enc8 flow] s
  testPermitted s.firing.picture.served s

/-- Step 4: the flow temperature against the dump flag (R179, R180). -/
def judgeFlow (b : BoilerStatus) (s : State) : State :=
  if s.firing.dump then if b.flow + 10 ≤ s.taken.dumpThreshold then endDump b.flow s else s
  else if s.taken.dumpThreshold ≤ b.flow then startDump b.flow s
  else s

/-- Step 5: flame (R166). -/
def judgeFlame (b : BoilerStatus) (s : State) : State :=
  match s.firing.state, b.flame with
  | .requesting, true => changeFiring .firing .flameOn [] s
  | .firing, false => changeFiring .requesting .flameOff [] s
  | _, _ => s

/-- A good STATUS taken (R175). -/
def takeStatus (b : BoilerStatus) (s : State) : State :=
  judgeFlame b (judgeFlow b (judgeLockout b (recoverLink b (keepStatus b s))))

/-! ### Received bytes (R202) -/

/-- The bytes of a frame so far call for it to be abandoned: a kind other than 0x02, a length other than 5. -/
def frameAtFault (bytes : List Byte) : Bool :=
  bytes[0]?.any (· != 0x02) || bytes[1]?.any (· != 5)

/-- A frame of which the length byte's number of bytes and three more have arrived (the length being 5), as a STATUS
frame; none while more are to come. -/
def completeFrame? : List Byte → Option StatusBytes
  | [_, _, flame, lockout, flow, ret, faultCode, crc] => some ⟨flame, lockout, flow, ret, faultCode, crc⟩
  | _ => none

/-- A complete frame judged (R161): a good STATUS is taken, any other discarded, and the window stays open. -/
def judgeComplete (f : StatusBytes) (s : State) : State :=
  match goodStatus? f with
  | some b => takeStatus b s
  | none => s.setLinkRx .quiet

/-- A byte of a frame being assembled, its bytes before it given (R202). -/
def frameByte (before : List Byte) (byte : LinkByte) (s : State) : State :=
  let bytes := before ++ [linkValue byte]
  if byte.stopLow || frameAtFault bytes then s.setLinkRx (.discarding s.clock.ticks)
  else
    match completeFrame? bytes with
    | some f => judgeComplete f s
    | none => s.setLinkRx (.frame bytes s.clock.ticks)

/-- What the receiver does at its next byte: 10 ms without one have ended a frame or a discard (R202). -/
def LinkRx.at (ticks : Nat) (rx : LinkRx) : LinkRx :=
  if rx.gapEnd.any fun t => decide (t ≤ ticks) then .quiet else rx

/-- A byte received while the reply window is open: discarded during a discard, else a byte of the frame (R202).
Bytes received with no window open are counted as nothing (R161). -/
def linkByte (byte : LinkByte) (s : State) : State :=
  if s.windowOpen then
    match s.link.rx.at s.clock.ticks with
    | .discarding _ => s.setLinkRx (.discarding s.clock.ticks)
    | .frame bytes _ => frameByte bytes byte s
    | .quiet => frameByte [] byte s
  else s

/-- STATUS (R161, R175): a good frame while the reply window is open. A frame cut short or a discard before it has
ended with its 10 ms of quiet (log 27). -/
def execStatus (frame : StatusBytes) (s : State) : Host.Outcome State Fault Refusal :=
  let quiet := afterQuiet s
  .next
    (match goodStatus? frame with
    | some _ => if quiet.windowOpen then judgeComplete frame quiet else s
    | none => s)

/-- DISCARDED_FRAME (R161): a complete frame that fails a check; the window stays open. -/
def execDiscardedFrame (frame : StatusBytes) (s : State) : Host.Outcome State Fault Refusal :=
  let quiet := afterQuiet s
  .next (if (goodStatus? frame).isNone && quiet.windowOpen then judgeComplete frame quiet else s)

/-- FRAME_ABANDONED (R202): a burner link byte arrives, its stop bit read low or not. At fault, it abandons the frame,
and what follows is discarded; during a discard it is one more byte discarded, from which the quiet counts; not at
fault, it is kept in the frame (log 27). -/
def execFrameAbandoned (byte : LinkByte) (s : State) : Host.Outcome State Fault Refusal :=
  .next (linkByte byte s)

/-- BYTE_GAP_TIMEOUT (R202): 10 ms without a byte; the window stays open. -/
def execByteGapTimeout (s : State) : Host.Outcome State Fault Refusal := .next (afterQuiet s)

/-! ### Misses (R162, R174) -/

/-- The window has ended without a good STATUS. -/
def takeMiss (s : State) : State :=
  let s := s.modLink fun l =>
    { l with exchange := .none, rx := .quiet, missCount := min 255 (l.missCount + 1) }
  if s.link.up && decide (s.taken.linkMisses ≤ s.link.missCount) then
    let s := s.modLink fun l => { l with up := false }
    enterLinkDown (raise .linkDown .none [enc8 s.link.missCount] s)
  else s

/-- MISS (R162). -/
def execMiss (s : State) : Host.Outcome State Fault Refusal :=
  .next
    (match s.link.windowEnd with
    | some t => takeMiss (runTo t s)
    | none => s)

/-! ### The Firing Controller's timers -/

/-- RUNOUT_TIMER_EXPIRY (R168). -/
def execRunoutTimerExpiry (s : State) : Host.Outcome State Fault Refusal :=
  .next
    (match s.firing.state, s.firing.runoutTimer with
    | .runout, some t => endRunout (runTo t s)
    | _, _ => s)

/-- The tick at which min_off has elapsed (R163). -/
def State.minOffDue (s : State) : Nat :=
  match s.firing.offSince with
  | some t => (t + s.taken.minOff) * Config.hz
  | none => 0

/-- MIN_OFF_ELAPSED (R169). -/
def execMinOffElapsed (s : State) : Host.Outcome State Fault Refusal :=
  .next (if s.firing.state = .anticycle then enterOff .minOff (runTo s.minOffDue s) else s)

/-- LOCKOUT_PUMP_TIMER_EXPIRY (R172): the pump request follows (R178). -/
def execLockoutPumpTimerExpiry (s : State) : Host.Outcome State Fault Refusal :=
  .next
    (match s.firing.state, s.firing.lockoutPumpTimer with
    | .lockout, some t => (runTo t s).modFiring fun f => { f with lockoutPumpTimer := none }
    | _, _ => s)

end Sys2Proof.Machine
end

