-- ==== Sys2Proof/Machine/BusOps.lean ====
section
/-! DEFINITION. The Room Bus Controller's shared operations (chapter 6): the outbound queue and the control
slot, readiness, failed attempts, and the receive queue's count with its hold-off (R114, R117). -/

namespace Sys2Proof.Machine

/-! ### SEND_FAILED (R112) -/

/-- Causes in the order R112 lists them. -/
def causeAttempts : Byte := 0

def causeDisplaced : Byte := 1

def causeQueueFull : Byte := 2

def OutBody.subject : OutBody → Subject
  | .announce zone _ _ => .zone zone
  | .joinAck dest _ => .address dest
  | .boostReply dest _ => .address dest

def sendFailed (b : OutBody) (cause : Byte) (attempts : Nat) (s : State) : State :=
  raise .sendFailed b.subject [b.kindByte, cause, enc8 attempts] s

def controlFailed (k : ControlKind) (attempts : Nat) (s : State) : State :=
  raise .sendFailed (.address 0) [k.kindByte, causeAttempts, enc8 attempts] s

/-! ### Readiness (R107, R108) -/

/-- The slot whose frame makes the next attempt: the control slot goes ahead of the queue (R107). -/
def RoomBus.candidate (b : RoomBus) : Option Source :=
  if b.control.isSome then some .control
  else if b.outbound.isEmpty then none
  else some .outbound

def RoomBus.backoff (b : RoomBus) : Source → Option Nat
  | .control => b.controlBackoff
  | .outbound => b.outboundBackoff

/-- A frame of the slot is in transmission. -/
def RoomBus.transmitting (b : RoomBus) (c : Source) : Bool :=
  match b.attempt with
  | some a => a.source == c
  | none => false

/-- The slot whose frame is ready (R108). A control frame is ready from its place in the slot on, while an attempt of
the outbound head runs to its end (R107). -/
def RoomBus.ready (b : RoomBus) : Option Source :=
  match b.candidate with
  | some c =>
    if b.errState = .normal ∧ b.transmitting c = false ∧ b.backoff c = none then some c else none
  | none => none

/-- The deferral wait belongs to the frame that is ready and starts when it becomes so (R108); a wait in
progress is held while the bus-error state is not NORMAL (R101, log 13). The wait of an outbound head ends when a
control frame is placed, and the head has a new one once the slot is empty again (log 45). -/
def refreshReady (s : State) : State :=
  let keep := s.bus.deferral.filter fun d => s.bus.candidate = some d.source
  let deferral :=
    match s.bus.ready with
    | some c =>
      match keep with
      | some d => some d
      | none => some ⟨c, afterMs s.clock.ticks s.taken.deferralLimit⟩
    | none => if s.bus.errState = .normal then none else keep
  { s with bus := { s.bus with deferral := deferral } }

/-! ### The control slot (R106) -/

/-- A new order: placed, cancelling with the opposite kind, or held while the slot is in transmission. -/
def RoomBus.order (k : ControlKind) (b : RoomBus) : RoomBus :=
  match b.control with
  | none => { b with control := some ⟨k, 0⟩, controlBackoff := none }
  | some f =>
    if b.transmitting .control then
      match b.pendingControl with
      | none => { b with pendingControl := some k }
      | some k' => if k' = k then b else { b with pendingControl := none }
    else if f.kind = k then b
    else { b with control := none, controlBackoff := none }

def orderControl (k : ControlKind) (s : State) : State :=
  refreshReady { s with bus := s.bus.order k }

/-- When the attempt of the control frame ends, the pending order is applied as a new one. -/
def applyPendingControl (s : State) : State :=
  match s.bus.pendingControl with
  | some k => orderControl k { s with bus := { s.bus with pendingControl := none } }
  | none => s

/-! ### The outbound queue (R103 to R105) -/

/-- The contents of an unsent ANNOUNCE of the zone replaced in place. -/
def replaceAnnounce (zone : Zone) (target : Int) (basis : Basis) : List OutFrame → Option (List OutFrame)
  | [] => none
  | f :: rest =>
    match f.body with
    | .announce z _ _ =>
      if z = zone then some (⟨.announce zone target basis, f.failures⟩ :: rest)
      else (replaceAnnounce zone target basis rest).map (f :: ·)
    | _ => (replaceAnnounce zone target basis rest).map (f :: ·)

def OutFrame.isAnnounce (f : OutFrame) : Bool :=
  match f.body with
  | .announce .. => true
  | _ => false

/-- The oldest ANNOUNCE taken out of a list. -/
def takeAnnounce : List OutFrame → Option (OutFrame × List OutFrame)
  | [] => none
  | f :: rest =>
    if f.isAnnounce then some (f, rest)
    else (takeAnnounce rest).map fun r => (r.1, f :: r.2)

def State.setOutbound (s : State) (l : List OutFrame) : State :=
  { s with bus := { s.bus with outbound := l } }

/-- The head of the queue has changed: waits of the old head end. -/
def newHead (s : State) : State :=
  { s with bus := { s.bus with
      outboundBackoff := none
      deferral := s.bus.deferral.filter fun d => d.source ≠ .outbound } }

/-- A request to queue an ANNOUNCE, placed by the first case of R104 that applies. -/
def queueAnnounce (zone : Zone) (target : Int) (basis : Basis) (s : State) : State :=
  let q := s.bus.outbound
  let n := if s.bus.transmitting .outbound then 1 else 0
  let frame : OutFrame := ⟨.announce zone target basis, 0⟩
  match replaceAnnounce zone target basis (q.drop n) with
  | some rest => s.setOutbound (q.take n ++ rest)
  | none =>
    if q.length < Config.outboundMax then refreshReady (s.setOutbound (q ++ [frame]))
    else
      match takeAnnounce (q.drop n) with
      | some (old, rest) =>
        let s := s.setOutbound (q.take n ++ rest ++ [frame])
        let s := if n = 0 ∧ q.head? = some old then newHead s else s
        sendFailed old.body causeDisplaced old.failures (refreshReady s)
      | none => sendFailed frame.body causeQueueFull 0 s

/-- A request to queue a JOIN_ACK or a BOOST_REPLY (R105). -/
def queueReply (b : OutBody) (s : State) : State :=
  if s.bus.outbound.length < Config.outboundMax then
    refreshReady (s.setOutbound (s.bus.outbound ++ [⟨b, 0⟩]))
  else sendFailed b causeQueueFull 0 s

/-! ### Failed attempts (R109 to R111) -/

/-- The end of the backoff after the n-th failure: r slots of 2 ms, r the k low bits of the backoff
register, k the smaller of n and backoff_cap; none when r is 0 (R110). -/
def backoffAfter (n : Nat) (s : State) : Option Nat :=
  let r := s.bus.backoffReg.toNat % 2 ^ (min n s.taken.backoffCap)
  if r = 0 then none else some (afterMs s.clock.ticks (2 * r))

/-- An attempt of the control frame fails. -/
def failControl (s : State) : State :=
  match s.bus.control with
  | some f =>
    let n := f.failures + 1
    if Config.attemptsMax ≤ n then
      controlFailed f.kind n { s with bus := { s.bus with control := none, controlBackoff := none } }
    else
      { s with bus := { s.bus with control := some ⟨f.kind, n⟩, controlBackoff := backoffAfter n s } }
  | none => s

/-- An attempt of the outbound head fails. -/
def failOutbound (s : State) : State :=
  match s.bus.outbound with
  | f :: rest =>
    let n := f.failures + 1
    if Config.attemptsMax ≤ n then
      sendFailed f.body causeAttempts n (newHead (s.setOutbound rest))
    else
      { s with bus := { s.bus with outbound := ⟨f.body, n⟩ :: rest, outboundBackoff := backoffAfter n s } }
  | [] => s

/-- A frame has failed (R109): its count goes up, then a backoff (R110) or the drop (R111); a pending control
order is applied at the end of a control frame's attempt (R106). -/
def failFrame (c : Source) (s : State) : State :=
  match c with
  | .control => refreshReady (applyPendingControl (failControl s))
  | .outbound => refreshReady (failOutbound s)

/-- The frame in transmission is so no longer. Beside an attempt of the outbound head the deferral wait of a control
frame goes on (R108). -/
def RoomBus.endAttempt (c : Source) (b : RoomBus) : RoomBus :=
  { b with
    attempt := none
    deferral := match c with
      | .control => none
      | .outbound => b.deferral.filter fun d => d.source = .control }

def endAttempt (c : Source) (s : State) : State := { s with bus := s.bus.endAttempt c }

/-- An attempt in transmission fails (R109). -/
def failAttempt (c : Source) (s : State) : State := failFrame c (endAttempt c s)

/-- An attempt fails by deferral, without a START (R108, R109): an attempt of the outbound head that runs beside it
goes on (R107). -/
def failDeferred (c : Source) (s : State) : State :=
  failFrame c { s with bus := { s.bus with deferral := none } }

/-- The line is in GAP from now on (R90). -/
def enterGap (s : State) : State :=
  { s with bus := { s.bus with line := .gap, gapSince := s.clock.ticks, rx := none } }

/-! ### The receive queue's count and hold-off (R114, R117) -/

/-- Reserved and filled slots (R114). -/
def State.receiveCount (s : State) : Nat := s.report.queue.length + (if s.report.reserved then 1 else 0)

def State.setHoldOff (s : State) (h : HoldOffState) : State :=
  { s with report := { s.report with holdOff := h } }

/-- The hold-off state judged at a change of the count (R117), and at a change of the levels (R118). -/
def judgeHoldOff (s : State) : State :=
  match s.report.holdOff with
  | .flowing =>
    if s.taken.holdoffLevel ≤ s.receiveCount then orderControl .holdOff (s.setHoldOff .held) else s
  | .held =>
    if s.receiveCount ≤ s.taken.resumeLevel then orderControl .resume (s.setHoldOff .flowing) else s

def State.setReserved (s : State) (b : Bool) : State :=
  { s with report := { s.report with reserved := b } }

def State.setRx (s : State) (rx : Option RxFrame) : State := { s with bus := { s.bus with rx := rx } }

def State.setAck (s : State) (a : Ack) : State := { s with bus := { s.bus with lastAck := a } }

/-- A frame holding a reservation is rewound: the slot is released and the rest of the frame is followed as
one not the part's own (R97). -/
def rewind (s : State) : State :=
  match s.bus.rx with
  | some f =>
    if f.mode = .reserved then
      judgeHoldOff ((s.setReserved false).setRx (some { f with mode := .notOwn }))
    else s
  | none => s

/-- The head record leaves the receive queue (R115); the count falls (R117). -/
def removeHead (s : State) : State :=
  judgeHoldOff { s with report := { s.report with queue := s.report.queue.tail, headRaised := false } }

end Sys2Proof.Machine
end

