-- ==== Sys2Proof/Machine/BusReceive.lean ====
section
/-! DEFINITION. The room bus as a receiver follows it (R90, R91, R95 to R102): line conditions, received bytes,
errors and recovery. -/

namespace Sys2Proof.Machine

/-- The part follows the line: the bus-error state is NORMAL (R101). -/
def State.listening (s : State) : Bool := s.bus.errState == .normal

def State.setLine (s : State) (l : LineState) : State := { s with bus := { s.bus with line := l } }

/-- A new frame on the line, its DEST awaited. -/
def beginFrame (s : State) : State := (s.setLine .busy).setRx (some ⟨.awaitingDest, [], s.taken.ownAddress⟩)

/-- The line state stands still while the bus-error state is STUCK or RECOVERING, until the part's own SYNC (log 43).
BUS_FREE (R90): 1 ms after the line entered GAP. -/
def execBusFree (s : State) : Host.Outcome State Fault Refusal :=
  .next
    (if s.listening && s.bus.line == .gap then (runTo (afterMs s.bus.gapSince 1) s).setLine .free else s)

/-- START_SEEN (R90): a START of another member in FREE or GAP; none is followed in STUCK and RECOVERING (log 43). -/
def execStartSeen (s : State) : Host.Outcome State Fault Refusal :=
  .next (if s.listening && s.bus.line != .busy then beginFrame s else s)

/-- The frame on the line is one whose STOP ends it without more: not the part's own, refused, or admitted. -/
def RxFrame.settled (f : RxFrame) : Bool := f.mode == .notOwn || f.mode == .admitted

/-- STOP_SEEN (R90); none is followed in STUCK and RECOVERING (log 43), nor in the part's own frame (log 44). -/
def execStopSeen (s : State) : Host.Outcome State Fault Refusal :=
  .next (if s.listening && s.bus.rx.any RxFrame.settled then enterGap s else s)

/-- The part's answer in the acknowledge slot of a byte of a frame it takes: nothing on a broadcast (R91). -/
def answerSlot (dest : Byte) (good : Bool) : Ack := if dest = 0 then .undriven else if good then .ack else .nack

/-- A DEST byte has ended (R95, R96). -/
def destEnded (dest : Byte) (s : State) : State :=
  let own := s.taken.ownAddress
  if dest = own ∨ dest = 0 then
    if s.receiveCount < Config.receiveMax then
      judgeHoldOff (((s.setReserved true).setRx (some ⟨.reserved, [dest], own⟩)).setAck (answerSlot dest true))
    else (s.setRx (some ⟨.notOwn, [dest], own⟩)).setAck (answerSlot dest false)
  else (s.setRx (some ⟨.notOwn, [dest], own⟩)).setAck .undriven

/-- DEST_RESERVATION (R96). -/
def execDestReservation (dest : Byte) (s : State) : Host.Outcome State Fault Refusal :=
  .next (if s.listening && s.bus.rx.any (fun f => f.mode == .awaitingDest) then destEnded dest s else s)

/-- The lengths R94 gives for the kinds room units send; none for every other kind. -/
def lengthsOf (kind : Byte) : List Byte :=
  if kind = 0x00 then [2, 3]
  else if kind = 0x01 then [3]
  else if kind = 0x02 then [0]
  else if kind = 0x03 then [5]
  else []

/-- Whether the next byte of a reserved frame is accepted (R97, R98); none at the place of the CRC byte. -/
def RxFrame.accepts (f : RxFrame) (b : Byte) : Option Bool :=
  match f.bytes with
  | [_] => some (decide (0x08 ≤ b.toNat) && decide (b.toNat ≤ 0x77) && b != f.own)
  | [_, _] => some (!(lengthsOf b).isEmpty)
  | [_, _, kind] => some (decide (b ∈ lengthsOf kind))
  | _ :: _ :: _ :: len :: payload => if payload.length < len.toNat then some true else none
  | [] => none

def RxFrame.dest (f : RxFrame) : Byte := f.bytes.headD 0

/-- A byte of a frame holding a reservation (R97, R98). -/
def reservedByte (f : RxFrame) (b : Byte) (s : State) : State :=
  let kept := s.setRx (some { f with bytes := f.bytes ++ [b] })
  match f.accepts b with
  | some true => kept.setAck (answerSlot f.dest true)
  | some false => rewind (kept.setAck (answerSlot f.dest false))
  | none => s

/-- A byte of a frame not the part's own: not acknowledged; of its bytes only SRC is kept. -/
def foreignByte (f : RxFrame) (b : Byte) (s : State) : State :=
  let f := if f.bytes.length = 1 then { f with bytes := f.bytes ++ [b] } else f
  (s.setRx (some f)).setAck .undriven

/-- RECEIVED_BYTE (R97, R98): SRC, KIND, LEN or a payload byte; after an admitted frame no byte is kept (R91). -/
def execReceivedByte (b : Byte) (s : State) : Host.Outcome State Fault Refusal :=
  .next
    (match s.listening, s.bus.rx with
    | true, some f =>
      match f.mode with
      | .reserved => reservedByte f b s
      | .notOwn => foreignByte f b s
      | .admitted => s.setAck .undriven
      | .awaitingDest => s
    | _, _ => s)

/-- The payload fields of a frame whose kind and length passed R97 (section 11.4). -/
def payloadOf (kind : Byte) (payload : List Byte) : Option Payload :=
  match kind.toNat, payload with
  | 0, [t1, t0] => some (.temp (ofBe16 t1 t0).toInt none)
  | 0, [t1, t0, h] => some (.temp (ofBe16 t1 t0).toInt (some h))
  | 1, [delta, m1, m0] => some (.boost delta (ofBe16 m1 m0))
  | 2, [] => some .boostCancel
  | 3, [unitType, a, b, c, d] => some (.join unitType (ofBe32 a b c d))
  | _, _ => none

/-- The record a whole frame gives (R98). -/
def RxFrame.record (f : RxFrame) (now : Nat) : Option FrameRecord :=
  match f.bytes with
  | _ :: src :: kind :: _ :: payload => (payloadOf kind payload).map fun p => ⟨src, p, now⟩
  | _ => none

/-- The CRC byte matches: the reserved slot is filled (R98). -/
def admitFrame (f : RxFrame) (r : FrameRecord) (s : State) : State :=
  let s := { s with report := { s.report with queue := s.report.queue ++ [r], reserved := false } }
  (s.setRx (some { f with mode := .admitted })).setAck (answerSlot f.dest true)

/-- The CRC byte of a reserved frame (R98). -/
def crcByteReceived (f : RxFrame) (crc : Byte) (s : State) : State :=
  match f.accepts crc, f.record s.now with
  | none, some r =>
    if crc = crc8 f.bytes then admitFrame f r s else rewind (s.setAck (answerSlot f.dest false))
  | _, _ => s

/-- FRAME_RECEIVED (R98). -/
def execFrameReceived (crc : Byte) (s : State) : Host.Outcome State Fault Refusal :=
  .next
    (match s.listening, s.bus.rx with
    | true, some f => if f.mode = .reserved then crcByteReceived f crc s else s
    | _, _ => s)

/-- A STOP or a repeated START has ended the frame on the line. -/
def afterEnd (start : Bool) (s : State) : State := if start then beginFrame s else enterGap s

/-- SHORT_FRAME (R99): a STOP or a repeated START at a byte boundary. In the part's own frame it changes nothing, and
the attempt goes on (log 44). -/
def execShortFrame (repeatedStart : Bool) (s : State) : Host.Outcome State Fault Refusal :=
  .next (if s.listening && s.bus.rx.isSome then afterEnd repeatedStart (rewind s) else s)

/-! ### Bus errors (R100) and the stuck bus (R101, R102) -/

def countError (s : State) : State :=
  { s with bus := { s.bus with errorCount := min 65535 (s.bus.errorCount + 1) } }

/-- SRC of the frame in progress when it has been received, or sent by the part itself (log 39), else 0x00. -/
def State.errorSubject (s : State) (carried : Nat) : Byte :=
  match s.bus.attempt with
  | some a => if 2 ≤ carried then a.src else 0
  | none => (s.bus.rx.bind fun f => f.bytes[1]?).getD 0

/-- The causes FRAMING and STUCK of a BUS_ERROR notice. -/
def raiseBusError (subject : Byte) (cause : List Byte) (s : State) : State :=
  raise .busError (.address subject) (cause ++ enc16 s.bus.errorCount) s

/-- The part's attempt fails, when it is the sender. -/
def failSender (s : State) : State :=
  match s.bus.attempt with
  | some a => failAttempt a.source s
  | none => s

/-- A bus error with the line BUSY: counted, noticed, the frame in progress ended. BUS_ERROR is raised before the
SEND_FAILED of a frame of the part's own that this error drops (log 40). -/
def busErrorSeen (start : Bool) (carried : Nat) (s : State) : State :=
  let subject := s.errorSubject carried
  let s := raiseBusError subject [0] (countError s)
  afterEnd start (failSender (rewind s))

/-- BUS_ERROR (R100): a START or STOP inside a byte or acknowledge slot; `carried` whole bytes of the part's own
frame had been sent. -/
def execBusError (start : Bool) (carried : Nat) (s : State) : Host.Outcome State Fault Refusal :=
  .next (if s.listening && s.bus.line == .busy then busErrorSeen start carried s else s)

/-- A stuck bus detected, steps 1 to 5 (R101). -/
def becomeStuck (held : HeldWire) (s : State) : State :=
  let s := { s with bus := { s.bus with errState := .stuck, stuckSince := s.clock.ticks } }
  let s := failSender (rewind s)
  raiseBusError 0 [1, HeldWire.code held] (countError (s.setRx none))

/-- STUCK_BUS (R101): detected in NORMAL. -/
def execStuckBus (held : HeldWire) (s : State) : Host.Outcome State Fault Refusal :=
  .next (if s.listening then becomeStuck held s else s)

/-- BUS_WIRES_HIGH (R102). -/
def execBusWiresHigh (s : State) : Host.Outcome State Fault Refusal :=
  .next
    (if s.bus.errState = .stuck then
      { s with bus := { s.bus with errState := .recovering, highSince := s.clock.ticks } }
    else s)

/-- The recovery is given up (R102): both wires are released, and the state is STUCK again. -/
def abandonRecovery (s : State) : State := { s with bus := { s.bus with errState := .stuck, syncing := false } }

/-- RECOVERY_INTERRUPTED (R102): a wire goes low before the recovery is complete, its SYNC begun or not. -/
def execRecoveryInterrupted (s : State) : Host.Outcome State Fault Refusal :=
  .next (if s.bus.errState = .recovering then abandonRecovery s else s)

/-- The SYNC begins with its START, after 20 ms of high wires (R102). What it makes on the line is State.sentOnLine. -/
def beginSync (s : State) : State := { s with bus := { s.bus with syncing := true, line := .busy } }

/-- SYNC (R102): begun, or abandoned, as the levels read back are those driven; a SYNC already begun is abandoned
when a later level is not the one driven or its STOP cannot be made. -/
def execSync (readbackGood : Bool) (s : State) : Host.Outcome State Fault Refusal :=
  .next
    (match s.bus.errState, readbackGood with
    | .recovering, true => if s.bus.syncing then s else beginSync (runTo (afterMs s.bus.highSince 20) s)
    | .recovering, false => abandonRecovery (runTo (afterMs s.bus.highSince 20) s)
    | _, _ => s)

/-- The waits held since the bus was stuck go on: each ends later by the time it was held (R101, log 13). -/
def RoomBus.release (ticks : Nat) (b : RoomBus) : RoomBus :=
  let held := ticks - b.stuckSince
  { b with
    errState := .normal
    syncing := false
    deferral := b.deferral.map fun d => { d with deadline := d.deadline + held }
    controlBackoff := b.controlBackoff.map (· + held)
    outboundBackoff := b.outboundBackoff.map (· + held) }

/-- SYNC_COMPLETE (R102): NORMAL again, the line in GAP. -/
def execSyncComplete (s : State) : Host.Outcome State Fault Refusal :=
  .next
    (if s.bus.errState = .recovering ∧ s.bus.syncing = true then
      refreshReady (enterGap { s with bus := s.bus.release s.clock.ticks })
    else s)

end Sys2Proof.Machine
end

