-- ==== Sys2Proof/Machine/BusSend.lean ====
section
/-! DEFINITION. The part as a sender on the room bus (R92, R103 to R111). -/

namespace Sys2Proof.Machine

/-- The frame of an attempt in transmission. -/
def State.sentDest (s : State) (c : Source) : Byte :=
  match c with
  | .control => 0
  | .outbound => ((s.bus.outbound.head?).map fun f => f.body.dest).getD 0

/-- The bytes of the frame an attempt sends (R93, R94). -/
def State.sentBytes (s : State) (a : Attempt) : List Byte :=
  match a.source with
  | .control => (s.bus.control.map fun f => busFrame 0 a.src f.kind.kindByte []).getD []
  | .outbound =>
    ((s.bus.outbound.head?).map fun f => busFrame f.body.dest a.src f.body.kindByte f.body.payload).getD []

/-- The levels of RBDA as the part lets them be while it sends a byte: its bits, most significant first, then the
acknowledge slot, in which the part releases the wire (R89, R91). -/
def busByteLevels (v : Byte) : List Bool := ((List.range 8).map fun i => v.getLsbD (7 - i)) ++ [true]

/-- The levels of an attempt's frame between its START and its STOP, one a bit time. -/
def State.sentLevels (s : State) (a : Attempt) : List Bool := (s.sentBytes a).flatMap busByteLevels

/-- What a member makes on the line: a START, a level of RBDA for one bit time, a STOP (R90). -/
inductive LineSymbol where
  | start
  | bit (high : Bool)
  | stop
deriving DecidableEq, Repr

/-- Bytes on the line between their START and their STOP, each with its acknowledge slot left undriven (R91). -/
def onLine (bytes : List Byte) : List LineSymbol := .start :: ((bytes.flatMap busByteLevels).map .bit ++ [.stop])

/-- The bytes of a SYNC: the DEST byte 0x00 alone (R94, R102). -/
def syncBytes : List Byte := [0x00]

/-- What the part makes on the line, as far as nothing cuts it short: the SYNC it has begun (R102), the frame of its
attempt (R93, R109), or nothing, with both wires released. -/
def State.sentOnLine (s : State) : List LineSymbol :=
  if s.bus.syncing then onLine syncBytes
  else
    match s.bus.attempt with
    | some a => onLine (s.sentBytes a)
    | none => []

/-- An attempt begins with a START (R90, R108). -/
def beginAttempt (c : Source) (s : State) : State :=
  { s with bus := { s.bus with
      attempt := some ⟨c, s.taken.ownAddress⟩
      line := .busy
      deferral := none
      rx := none } }

/-- ATTEMPT_START (R108): a frame is ready and the bus is free. -/
def execAttemptStart (s : State) : Host.Outcome State Fault Refusal :=
  .next
    (match s.bus.ready with
    | some c => if s.bus.line = .free ∧ s.bus.attempt = none then beginAttempt c s else s
    | none => s)

/-- DEFERRAL_TIMEOUT (R108): the bus has stayed busy until the limit; the attempt fails without a START. -/
def execDeferralTimeout (s : State) : Host.Outcome State Fault Refusal :=
  .next
    (match s.bus.deferral with
    | some d =>
      if s.listening && s.bus.line != .free then failDeferred d.source (runTo d.deadline s) else s
    | none => s)

/-- What the part has received of the winning frame when it loses (R92, log 14): nothing whole yet; the DEST it
had itself sent; or an SRC that is its own address, which R97 refuses. -/
def followWinner (a : Attempt) (dest : Byte) (carried : Nat) (s : State) : State :=
  match carried with
  | 0 => s.setRx (some ⟨.awaitingDest, [], s.taken.ownAddress⟩)
  | 1 => destEnded dest s
  | _ => (s.setRx (some ⟨.notOwn, [dest, a.src], s.taken.ownAddress⟩)).setAck .undriven

/-- An arbitration loss (R92, R106, R109): the frame stays as it was and is ready again. A pending control order is
applied first; then the part follows the winner, and a reservation for its DEST may order a HOLD_OFF (log 50). -/
def loseArbitration (a : Attempt) (carried : Nat) (s : State) : State :=
  let dest := s.sentDest a.source
  let s := endAttempt a.source s
  let s := if a.source = .control then applyPendingControl s else s
  refreshReady (followWinner a dest carried s)

/-- ARBITRATION_LOSS (R92): after `carried` whole bytes of the part's frame. -/
def execArbitrationLoss (carried : Nat) (s : State) : Host.Outcome State Fault Refusal :=
  .next
    (match s.bus.attempt with
    | some a => loseArbitration a carried s
    | none => s)

/-- A successful attempt's frame leaves the control slot or the queue (R106, R109). -/
def frameSent (c : Source) (s : State) : State :=
  match c with
  | .control => applyPendingControl { s with bus := { s.bus with control := none, controlBackoff := none } }
  | .outbound => newHead (s.setOutbound s.bus.outbound.tail)

/-- An attempt succeeds: the part makes its STOP (R109). -/
def succeed (a : Attempt) (s : State) : State :=
  refreshReady (frameSent a.source (enterGap (endAttempt a.source s)))

/-- ATTEMPT_SUCCESS (R109). -/
def execAttemptSuccess (s : State) : Host.Outcome State Fault Refusal :=
  .next
    (match s.bus.attempt with
    | some a => succeed a s
    | none => s)

/-- ATTEMPT_FAILURE (R109): a NACK in a slot of a unicast frame; the part makes its STOP. -/
def execAttemptFailure (s : State) : Host.Outcome State Fault Refusal :=
  .next
    (match s.bus.attempt with
    | some a => if s.sentDest a.source = 0 then s else failAttempt a.source (enterGap s)
    | none => s)

/-- The backoff of a slot's frame is over. -/
def RoomBus.endBackoff (c : Source) (b : RoomBus) : RoomBus :=
  match c with
  | .control => { b with controlBackoff := none }
  | .outbound => { b with outboundBackoff := none }

/-- BACKOFF_END (R110): the frame is ready again; a backoff is held while the bus is not NORMAL (R101). -/
def execBackoffEnd (source : Source) (s : State) : Host.Outcome State Fault Refusal :=
  .next
    (match s.listening, s.bus.backoff source with
    | true, some t =>
      let s := runTo t s
      refreshReady { s with bus := s.bus.endBackoff source }
    | _, _ => s)

end Sys2Proof.Machine
end

