-- ==== Sys2Proof/Machine/ConfigOps.lean ====
section
/-! DEFINITION. The parameter table of section 10.8 by number (R200), and the checks of CONFIGURE (R196). -/

namespace Sys2Proof.Machine

/-- The parameters that are temperatures in tenths, with a sign. -/
def paramSigned (n : Nat) : Bool := n == 0 || n == 1 || n == 3 || n == 22 || n == 23

/-- The parameters 29 to 34 are per contact. -/
def paramPerContact (n : Nat) : Bool := 29 ≤ n && n ≤ 34

/-- A value of CONFIGURE as a number. -/
def paramValue (n : Nat) (v : Half) : Int := if paramSigned n then v.toInt else v.toNat

/-- The range of each parameter. call_off and resume_level have no upper end of their own: the table bounds
them by the other member of their pair alone (log 17). -/
def paramRange : Nat → Int × Int
  | 0 => (30, 100)
  | 1 => (200, 350)
  | 2 => (5, 300)
  | 3 => (5, 50)
  | 4 => (10, 60)
  | 5 => (0, 65535)
  | 6 => (10, 120)
  | 7 => (1, 20)
  | 8 => (0, 100)
  | 9 => (1, 16)
  | 10 => (5, 50)
  | 11 => (0, 1)
  | 12 => (25, 50)
  | 13 => (50, 85)
  | 14 => (0, 600)
  | 15 => (0, 900)
  | 16 => (0, 1)
  | 17 => (80, 95)
  | 18 => (1, 5)
  | 19 => (2, 10)
  | 20 => (60, 1800)
  | 21 => (120, 3600)
  | 22 => (-200, 100)
  | 23 => (300, 600)
  | 24 => (2, 16)
  | 25 => (0, 65535)
  | 26 => (0x08, 0x77)
  | 27 => (50, 1000)
  | 28 => (1, 6)
  | 29 => (0, 1)
  | 30 => (0, 1)
  | 31 => (1, 8)
  | 32 => (0, 1)
  | 33 => (0, 1)
  | 34 => (0, 600)
  | _ => (1, 0)

def boolInt (b : Bool) : Int := if b then 1 else 0

/-- A parameter's present value, by number (and contact). -/
def Params.get (p : Params) (n : Nat) (c : Zone) : Int :=
  match n with
  | 0 => p.frostFloor
  | 1 => p.maxTarget
  | 2 => p.claimLapse
  | 3 => p.propBand
  | 4 => p.callOn
  | 5 => p.callOff
  | 6 => p.loopPeriod
  | 7 => p.deadband
  | 8 => p.blindOpening
  | 9 => p.servedLimit
  | 10 => p.openThreshold
  | 11 => boolInt p.exerciseEnable
  | 12 => p.minFlow
  | 13 => p.maxFlow
  | 14 => p.runoutTime
  | 15 => p.minOff
  | 16 => boolInt p.bypassEnable
  | 17 => p.dumpThreshold
  | 18 => p.linkPeriod
  | 19 => p.linkMisses
  | 20 => p.staleAge
  | 21 => p.lostAge
  | 22 => p.plausLow
  | 23 => p.plausHigh
  | 24 => p.holdoffLevel
  | 25 => p.resumeLevel
  | 26 => p.ownAddress.toNat
  | 27 => p.deferralLimit
  | 28 => p.backoffCap
  | 29 => boolInt p.contacts[c].enable
  | 30 => boolInt (p.contacts[c].polarity == .highOpen)
  | 31 => p.contacts[c].debounce
  | 32 => boolInt p.contacts[c].openEdgeNotice
  | 33 => boolInt p.contacts[c].closeEdgeNotice
  | _ => p.contacts[c].windowDelay

/-- A contact setting written, by number. -/
def ContactSettings.put (n : Nat) (v : Int) (k : ContactSettings) : ContactSettings :=
  match n with
  | 29 => { k with enable := v == 1 }
  | 30 => { k with polarity := if v = 1 then .highOpen else .lowOpen }
  | 31 => { k with debounce := v.toNat }
  | 32 => { k with openEdgeNotice := v == 1 }
  | 33 => { k with closeEdgeNotice := v == 1 }
  | 34 => { k with windowDelay := v.toNat }
  | _ => k

/-- A parameter written, by number (and contact). -/
def Params.put (p : Params) (n : Nat) (c : Zone) (v : Int) : Params :=
  match n with
  | 0 => { p with frostFloor := v }
  | 1 => { p with maxTarget := v }
  | 2 => { p with claimLapse := v.toNat }
  | 3 => { p with propBand := v.toNat }
  | 4 => { p with callOn := v.toNat }
  | 5 => { p with callOff := v.toNat }
  | 6 => { p with loopPeriod := v.toNat }
  | 7 => { p with deadband := v.toNat }
  | 8 => { p with blindOpening := v.toNat }
  | 9 => { p with servedLimit := v.toNat }
  | 10 => { p with openThreshold := v.toNat }
  | 11 => { p with exerciseEnable := v == 1 }
  | 12 => { p with minFlow := v.toNat }
  | 13 => { p with maxFlow := v.toNat }
  | 14 => { p with runoutTime := v.toNat }
  | 15 => { p with minOff := v.toNat }
  | 16 => { p with bypassEnable := v == 1 }
  | 17 => { p with dumpThreshold := v.toNat }
  | 18 => { p with linkPeriod := v.toNat }
  | 19 => { p with linkMisses := v.toNat }
  | 20 => { p with staleAge := v.toNat }
  | 21 => { p with lostAge := v.toNat }
  | 22 => { p with plausLow := v }
  | 23 => { p with plausHigh := v }
  | 24 => { p with holdoffLevel := v.toNat }
  | 25 => { p with resumeLevel := v.toNat }
  | 26 => { p with ownAddress := enc8 v.toNat }
  | 27 => { p with deferralLimit := v.toNat }
  | 28 => { p with backoffCap := v.toNat }
  | _ => { p with contacts := p.contacts.set c (p.contacts[c].put n v) }

/-- The contact an item names; a device parameter's contact number is not looked at. -/
def itemContact (i : ConfigItem) : Option Zone :=
  if paramPerContact i.param.toNat then zone? i.contact else some 0

/-- The item names a parameter of the table, with a contact number where one is needed (R196). -/
def itemNamed (i : ConfigItem) : Bool := decide (i.param.toNat ≤ 34) && (itemContact i).isSome

/-- What an item names: the parameter and, for a per-contact setting, the contact. -/
def itemKey (i : ConfigItem) : Nat × Option Zone := (i.param.toNat, itemContact i)

/-- The value lies in its own range (R196). -/
def itemInRange (i : ConfigItem) : Bool :=
  let v := paramValue i.param.toNat i.value
  decide ((paramRange i.param.toNat).1 ≤ v) && decide (v ≤ (paramRange i.param.toNat).2)

/-- The value an item writes, and the one it finds. -/
def Params.holdsItem (p : Params) (i : ConfigItem) : Bool :=
  p.get i.param.toNat ((itemContact i).getD 0) == paramValue i.param.toNat i.value

def Params.putItem (p : Params) (i : ConfigItem) : Params :=
  p.put i.param.toNat ((itemContact i).getD 0) (paramValue i.param.toNat i.value)

/-- All values of a request written at one moment (R197). -/
def Params.putAll (p : Params) (items : List ConfigItem) : Params := items.foldl Params.putItem p

/-- The dependent pairs of R196, each with its members' numbers, in the order R196 lists them. -/
def dependentPairs (p : Params) : List (Nat × Nat × Bool) :=
  [(5, 4, decide (p.callOff + 5 ≤ p.callOn)),
   (21, 20, decide (p.staleAge < p.lostAge)),
   (25, 24, decide (p.resumeLevel + 2 ≤ p.holdoffLevel)),
   (12, 13, decide (p.minFlow < p.maxFlow))]

/-- The index of the last item that names one of two parameters. -/
def laterIndex (a b : Nat) (i : Nat) : List ConfigItem → Option Nat
  | [] => none
  | x :: rest =>
    match laterIndex a b (i + 1) rest with
    | some j => some j
    | none => if x.param.toNat = a ∨ x.param.toNat = b then some i else none

/-- The first pair that does not hold and of which a member is given: the index of its later item. Of two broken
pairs the one R196 lists first counts (log 37). -/
def brokenPair (items : List ConfigItem) : List (Nat × Nat × Bool) → Option Nat
  | [] => none
  | (a, b, ok) :: rest =>
    match ok, laterIndex a b 0 items with
    | false, some j => some j
    | _, _ => brokenPair items rest

/-- The checks of R196 after the claim check: none when the request passes, else the refusal's body (the
index the reply carries, or nothing for the count). -/
def configFault (p : Params) (items : List ConfigItem) : Option (List Byte) :=
  if items.length < 1 ∨ 24 < items.length then some []
  else
    match firstFault itemNamed 0 items with
    | some i => some [enc8 i]
    | none =>
      match firstRepeat [] 0 (items.map itemKey) with
      | some i => some [enc8 i]
      | none =>
        match firstFault itemInRange 0 items with
        | some i => some [enc8 i]
        | none => (brokenPair items (dependentPairs (p.putAll items))).map fun i => [enc8 i]

/-- One byte or two, by the widths of R200, for READ_CONFIG. prop_band, a difference of temperatures, is sent as a
temperature in two bytes (log 52). -/
def encParam (n : Nat) (v : Int) : List Byte :=
  if n = 0 ∨ n = 1 ∨ n = 3 ∨ n = 22 ∨ n = 23 then encTemp v
  else if n = 2 ∨ n = 6 ∨ n = 14 ∨ n = 15 ∨ n = 18 ∨ n = 20 ∨ n = 21 ∨ n = 27 ∨ n = 34 then enc16 v.toNat
  else [enc8 v.toNat]

end Sys2Proof.Machine
end

