-- ==== Sys2Proof/Machine/ReportOps.lean ====
section
/-! DEFINITION. The Report Processor's shared operations (chapter 7): the registry, a zone's measurement, and
the freshness of units. -/

namespace Sys2Proof.Machine

/-- The occupied record at an address (R125). -/
def unitAt (a : Byte) (s : State) : Option UnitIx :=
  allUnits.find? fun u =>
    match s.report.registry[u] with
    | some r => r.address == a
    | none => false

/-- The unit at an index is eligible for the zone with the freshness asked for (R130). -/
def State.serves (s : State) (z : Zone) (f : Freshness) (u : UnitIx) : Bool :=
  match s.report.registry[u] with
  | some r => r.eligible z && r.freshness == f
  | none => false

/-- The primary unit when it serves, else the lowest-indexed unit that does (R130). -/
def chooseUnit (z : Zone) (f : Freshness) (s : State) : Option UnitIx :=
  match s.zones[z].primaryUnit.filter (s.serves z f) with
  | some u => some u
  | none => allUnits.find? (s.serves z f)

/-- A unit's last_temp. -/
def State.tempOf (s : State) (u : UnitIx) : Option Int := s.report.registry[u].bind (·.lastTemp)

/-- The choice of R130: measured, measure_state and measure_unit. -/
def measurement (z : Zone) (s : State) : Option Int × MeasureState × Option UnitIx :=
  match chooseUnit z .fresh s with
  | some u => (s.tempOf u, .fresh, some u)
  | none =>
    match chooseUnit z .stale s with
    | some u => (s.tempOf u, .aged, some u)
    | none => (none, .blind, none)

/-- A recomputation of a zone's measurement (R131): a change of measure_state gives a zone event. -/
def recompute (z : Zone) (s : State) : State :=
  let m := measurement z s
  let old := s.zones[z].measureState
  let s := s.modZone z fun r => { r with measured := m.1, measureState := m.2.1, measureUnit := m.2.2 }
  if old = m.2.1 then s else giveZoneEvent z s

/-- The recomputation of the zone of a unit that is ACTIVE. -/
def recomputeOf (r : UnitRecord) (s : State) : State :=
  match r.zone with
  | some z => recompute z s
  | none => s

/-- The detail of UNIT_STALE and UNIT_LOST (R128). -/
def ageDetail (r : UnitRecord) (age : Nat) : List Byte := [r.address, encFinOpt r.zone] ++ encSeconds age

/-- A record aged at a second event (R128): its notices, then the recomputation of its zone. -/
def ageUnit (u : UnitIx) (s : State) : State :=
  match s.report.registry[u] with
  | some r =>
    match r.lastReport with
    | some t =>
      let age := s.now - t
      let f := agedFreshness r.freshness age s.taken.staleAge s.taken.lostAge
      if f = r.freshness then s
      else
        let s := s.setUnit u (some { r with freshness := f })
        let s := if r.freshness = .fresh then raise .unitStale (.unit u) (ageDetail r age) s else s
        let s := if f = .lost then raise .unitLost (.unit u) (ageDetail r age) s else s
        recomputeOf r s
    | none => s
  | none => s

end Sys2Proof.Machine
end

