-- ==== Sys2Proof/Machine/StoreOps.lean ====
section
/-! DEFINITION. The Program Store and the Store Arbiter (chapters 2 to 4): resolution and what it sets off,
minute evaluations, every request the store carries out, and the grants. -/

namespace Sys2Proof.Machine

/-! ### Resolution and its outcome (R57 to R61) -/

/-- A zone is resolved and the outcome handled (R58, R60, R61). `force` asks for the ANNOUNCE of a zone that a
SET_ZONE takes out of UNUSED. -/
def settle (force : Bool) (z : Zone) (s : State) : State :=
  let r := s.zones[z]
  let n := resolve r.serviceMode r.baseTarget s.store.overrides[z] s.written.frostFloor s.written.maxTarget
  let changed := n.1 != r.resolvedTarget || n.2 != r.resolvedBasis
  let s := s.modZone z fun r => { r with resolvedTarget := n.1, resolvedBasis := n.2 }
  let s := if (changed || force) && r.serviceMode != .unused then queueAnnounce z n.1 n.2 s else s
  let s := if changed then raise .targetChanged (.zone z) (encTemp n.1 ++ [n.2.code]) s else s
  if n.1 = r.resolvedTarget then s else giveZoneEvent z s

/-! ### Current points (R33, R34, R36) -/

def State.currentOf (s : State) (z : Zone) : Option Point :=
  currentPoint s.clock.timeValid s.clock.minute s.store.lists[z]

/-- A point transition is found when the current point recomputed is another (R36). -/
def State.pointMoves (s : State) (z : Zone) : Bool := (s.currentOf z).map (·.minute) != s.store.current[z]

/-- The current point recomputed, with base_target and base_source (R33, R34). -/
def takePoint (z : Zone) (s : State) : State :=
  let p := s.currentOf z
  let b := baseOf p s.zones[z].defaultTarget
  { s with
    store := { s.store with current := s.store.current.set z (p.map (·.minute)) }
    zones := s.zones.set z { s.zones[z] with baseTarget := b.1, baseSource := b.2 } }

/-- Kinds, end causes and the detail of OVERRIDE_EXPIRED (R47, R48). -/
def kindHold : Byte := 0

def kindBoost : Byte := 1

def endCount : Byte := 0

def endPoint : Byte := 1

def raiseExpired (z : Zone) (kind cause owner : Byte) (s : State) : State :=
  raise .overrideExpired (.zone z) [kind, cause, owner] s

/-- An UNTIL_NEXT_POINT hold ends at a point transition found by a minute evaluation or a SET_TIME (R48). -/
def endPointHold (z : Zone) (s : State) : State :=
  match s.store.overrides[z].hold with
  | some h =>
    if h.holdEnd = .untilNextPoint then
      raiseExpired z kindHold endPoint (encPort h.owner) (s.modStack z fun k => { k with hold := none })
    else s
  | none => s

/-- Step 1 of R35, and the visit of a zone by R28. -/
def pointStep (z : Zone) (s : State) : State :=
  let moves := s.pointMoves z
  let s := takePoint z s
  if moves then endPointHold z s else s

/-- Step 2 of R35: the counts of a zone's stack lowered by m (R47), the HOLD's notice first. -/
def lowerCounts (m : Nat) (z : Zone) (s : State) : State :=
  let k := s.store.overrides[z]
  let s := s.modStack z fun k => { k with hold := k.hold.bind (Hold.lower m), boost := k.boost.bind (Boost.lower m) }
  let s :=
    match k.hold with
    | some h => if (h.lower m).isNone then raiseExpired z kindHold endCount (encPort h.owner) s else s
    | none => s
  match k.boost with
  | some b => if (b.lower m).isNone then raiseExpired z kindBoost endCount (encFin b.owner) s else s
  | none => s

/-- What a zone's resolution reads of the zone itself. -/
def State.inputsOf (s : State) (z : Zone) : Int × BaseSource × Stack :=
  (s.zones[z].baseTarget, s.zones[z].baseSource, s.store.overrides[z])

/-- An operation on a zone, which is then resolved once if the operation changed its base or stack (R57). -/
def settling (z : Zone) (f : State → State) (s : State) : State :=
  let s' := f s
  if s'.inputsOf z = s.inputsOf z then s' else settle false z s'

/-- A minute evaluation covering m minutes (R35). -/
def minuteEvaluation (m : Nat) (s : State) : State :=
  forEach allZones (fun z => settling z fun s => lowerCounts m z (pointStep z s)) s

/-! ### Answers -/

/-- A request's effect with its reply, and the claim it used (R67). -/
abbrev Answer := State × StoreResult

def answer (st : Status) (body : List Byte) (used : Option ClaimIx) (s : State) : Answer :=
  (s, .reply st body used)

/-- The zone check and the claim check that come first (R37, R69). -/
def underZoneClaim (p : Port) (zone : Byte) (s : State) (act : Zone → Answer) : Answer :=
  match zone? zone with
  | none => answer .range [] none s
  | some z => if s.holds p (zoneClaim z) then act z else answer .noClaim [] none s

/-- A value that must be in its range. -/
def inRange {α : Type} (v : Option α) (used : Option ClaimIx) (s : State) (act : α → Answer) : Answer :=
  match v with
  | none => answer .range [] used s
  | some x => act x

/-! ### SET_ZONE (R5) -/

def State.occupied (s : State) (u : UnitIx) : Bool := s.report.registry[u].isSome

/-- The three fields written, with what follows in the same request. -/
def writeZone (z : Zone) (mode : ServiceMode) (target : Int) (primary : Option UnitIx) (s : State) : State :=
  let old := s.zones[z]
  let s := s.modZone z fun r =>
    { r with
      serviceMode := mode
      defaultTarget := target
      primaryUnit := primary
      baseTarget := if r.baseSource = .default then target else r.baseTarget }
  let s := settle (old.serviceMode == .unused && mode != .unused) z s
  let s := if old.primaryUnit = primary then s else recompute z s
  if old.serviceMode = mode then s else giveZoneEvent z s

def storeSetZone (p : Port) (zone mode : Byte) (target : Half) (primary : Byte) (s : State) : Answer :=
  underZoneClaim p zone s fun z =>
    let used := some (zoneClaim z)
    inRange (serviceMode? mode) used s fun m =>
    inRange (target? s.written.frostFloor s.written.maxTarget target) used s fun t =>
    inRange (finOrNone? 32 primary) used s fun u =>
    if u.any fun i => !s.occupied i then answer .notFound [] used s
    else answer .ok [] used (writeZone z m t u s)

/-! ### Schedule requests (R37 to R42) -/

/-- A list written, the records it gives back or takes counted on the free list (R31). -/
def State.setPoints (s : State) (z : Zone) (l : List Point) : State :=
  { s with store := { s.store with
      lists := s.store.lists.set z l
      free := s.store.free + s.store.lists[z].length - l.length } }

/-- The common steps of a successful edit (R37): the list, the current point, the revision, the reply. -/
def editDone (z : Zone) (l : List Point) (s : State) : Answer :=
  let s := settling z (fun s => takePoint z (s.setPoints z l)) s
  let s := { s with store := { s.store with revisions := s.store.revisions.set z (s.store.revisions[z] + 1) } }
  answer .ok ([enc8 s.store.lists[z].length] ++ enc16 s.store.free ++ [s.store.revisions[z]])
    (some (zoneClaim z)) s

def storeInsert (p : Port) (zone : Byte) (minute : Half) (kind : Byte) (target : Half) (s : State) : Answer :=
  underZoneClaim p zone s fun z =>
    let used := some (zoneClaim z)
    inRange (minute? minute) used s fun m =>
    inRange (pointKind? s.written.frostFloor s.written.maxTarget kind target) used s fun k =>
    let l := s.store.lists[z]
    if l.any fun q => q.minute == m then answer .duplicateTime [] used s
    else if Config.listMax ≤ l.length then answer .listFull [] used s
    else if s.store.free = 0 then answer .poolFull [] used s
    else editDone z (insertPoint ⟨m, k⟩ l) s

def storeDelete (p : Port) (zone : Byte) (minute : Half) (s : State) : Answer :=
  underZoneClaim p zone s fun z =>
    let used := some (zoneClaim z)
    inRange (minute? minute) used s fun m =>
    let l := s.store.lists[z]
    if l.any fun q => q.minute == m then editDone z (l.filter fun q => q.minute != m) s
    else answer .notFound [] used s

def storeLoad (p : Port) (zone : Byte) (points : List (BitVec 24)) (s : State) : Answer :=
  underZoneClaim p zone s fun z =>
    let used := some (zoneClaim z)
    let read := packedPoint? s.written.frostFloor s.written.maxTarget
    let present := s.store.lists[z].length
    if Config.listMax < points.length then answer .range [] used s
    else
      match firstFault (fun w => (read w).isSome) 0 points with
      | some i => answer .range [enc8 i] used s
      | none =>
        let l := points.filterMap read
        match firstRepeat [] 0 (l.map (·.minute)) with
        | some i => answer .duplicateTime [enc8 i] used s
        | none =>
          if s.store.free + present < l.length then
            answer .poolFull (enc16 s.store.free ++ [enc8 present]) used s
          else editDone z (sortPoints l) s

/-- The current point as its index in the list and its minute (R42). -/
def currentBytes (current : Option Nat) (l : List Point) : List Byte :=
  [encUncoded .currentIndex (current.bind fun m => l.findIdx? fun q => q.minute == m)] ++ enc16Opt current

def storeRead (zone start : Byte) (s : State) : Answer :=
  inRange (zone? zone) none s fun z =>
  inRange (fin? 64 start) none s fun n =>
    let l := s.store.lists[z]
    answer .ok
      ([encFin z, enc8 l.length] ++ enc16 s.store.free ++ [s.store.revisions[z]] ++
        currentBytes s.store.current[z] l ++ encList encPoint ((l.drop n.val).take 16))
      none s

/-! ### CLAIM and RELEASE (R64, R65) -/

def storeClaim (p : Port) (target : Byte) (s : State) : Answer :=
  inRange (claim? target) none s fun c =>
    let ok := fun s : State => answer .ok ([encFin c] ++ enc16 s.written.claimLapse) (some c) s
    match s.store.claims[c] with
    | none => ok (s.setClaim c (some ⟨p, s.written.claimLapse, false⟩))
    | some h =>
      if h.holder = p then ok s
      else answer .heldByOther ([encFin c] ++ enc16 h.remaining ++ [encFlag h.frozen]) none s

def storeRelease (p : Port) (target : Byte) (s : State) : Answer :=
  inRange (claim? target) none s fun c =>
    if s.holds p c then answer .ok [] none (s.setClaim c none) else answer .noClaim [] none s

/-! ### Overrides by the hosts (R44 to R49, R54) -/

/-- The code of a HOLD's end and its remaining count. -/
def HoldEnd.bytes : HoldEnd → List Byte
  | .duration r => [0] ++ enc16 r
  | .untilNextPoint => [1] ++ enc16Opt none
  | .indefinite => [2] ++ enc16Opt none

def Hold.bytes (h : Hold) : List Byte :=
  encTemp h.target ++ [encFlag h.locked] ++ h.holdEnd.bytes ++ [encPort h.owner]

def Boost.bytes (b : Boost) : List Byte := [enc8 b.delta] ++ enc16 b.remaining ++ [encFin b.owner]

/-- The stack report of R44, taken at the end of the request. -/
def stackReport (z : Zone) (s : State) : List Byte :=
  let r := s.zones[z]
  let k := s.store.overrides[z]
  [encFin z] ++ encTemp r.resolvedTarget ++ [r.resolvedBasis.code] ++ presence Hold.bytes k.hold ++
    presence Boost.bytes k.boost ++ [encFlag k.window]

def reported (st : Status) (z : Zone) (s : State) : Answer := answer st (stackReport z s) none s

/-- The steps of a taken PUSH_HOLD (R46). -/
def pushHold (p : Port) (z : Zone) (h : Hold) (s : State) : State :=
  let s :=
    match s.store.overrides[z].hold with
    | some old =>
      if old.owner = p then s else raise .overrideReplaced (.zone z) [kindHold, encPort old.owner] s
    | none => s
  settle false z (s.modStack z fun k => { k with hold := some h, boost := none })

def storePushHold (p : Port) (zone : Byte) (target : Half) (locked holdEnd : Byte) (minutes : Half)
    (s : State) : Answer :=
  inRange (zone? zone) none s fun z =>
  inRange (target? s.written.frostFloor s.written.maxTarget target) none s fun t =>
  inRange (flag? locked) none s fun l =>
  inRange (holdEnd? holdEnd minutes) none s fun e =>
    reported .ok z (pushHold p z ⟨t, l, e, p⟩ s)

def storeCancelHold (zone : Byte) (s : State) : Answer :=
  inRange (zone? zone) none s fun z =>
    if s.store.overrides[z].hold.isNone then reported .notFound z s
    else reported .ok z (settle false z (s.modStack z fun k => { k with hold := none }))

def storeCancelBoost (zone : Byte) (s : State) : Answer :=
  inRange (zone? zone) none s fun z =>
    if s.store.overrides[z].boost.isNone then reported .notFound z s
    else reported .ok z (settle false z (s.modStack z fun k => { k with boost := none }))

/-! ### The time (R26 to R29) -/

/-- A taken SET_TIME (R27, R28). -/
def takeTime (p : Port) (minute seconds : Nat) (s : State) : State :=
  let s := { s with clock :=
    { s.clock with minute := minute, seconds := seconds, timeValid := true, authority := some p } }
  raise .timeSet (.port p) [] (forEach allZones (fun z => settling z (pointStep z)) s)

def storeSetTime (p : Port) (minute : Half) (seconds : Byte) (s : State) : Answer :=
  inRange (minute? minute) none s fun m =>
  inRange (fin? 60 seconds) none s fun n =>
    if s.clock.authority = some p.other then answer .notAuthority [] none s
    else answer .ok [] none (takeTime p m n.val s)

def State.freeAuthority (s : State) : State := { s with clock := { s.clock with authority := none } }

def storeReleaseTime (p : Port) (s : State) : Answer :=
  if s.clock.authority = some p then answer .ok [] none s.freeAuthority
  else answer .notAuthority [] none s

/-! ### CONFIGURE (R59, R196, R197) -/

/-- All values written; every zone resolved when a limit changed. -/
def writeConfig (items : List ConfigItem) (s : State) : State :=
  let old := s.written
  let s := { s with written := old.putAll items }
  if s.written.frostFloor = old.frostFloor ∧ s.written.maxTarget = old.maxTarget then s
  else forEach allZones (settle false) s

def storeConfigure (p : Port) (items : List ConfigItem) (s : State) : Answer :=
  if s.holds p configClaim then
    match configFault s.written items with
    | some body => answer .range body (some configClaim) s
    | none =>
      answer .ok [enc8 items.length, enc8 (items.filter fun i => !s.written.holdsItem i).length]
        (some configClaim) (writeConfig items s)
  else answer .noClaim [] none s

/-! ### The requests of a port -/

/-- A port's own Program Store request (10 section 10.3, the rows marked "Arbiter yes"). A request of another
row is never placed as one. -/
def storeHost (p : Port) (r : HostReq) (s : State) : Answer :=
  match r with
  | .setZone zone mode target primary => storeSetZone p zone mode target primary s
  | .scheduleInsert zone minute kind target => storeInsert p zone minute kind target s
  | .scheduleDelete zone minute => storeDelete p zone minute s
  | .scheduleLoad zone points => storeLoad p zone points s
  | .scheduleRead zone start => storeRead zone start s
  | .claim target => storeClaim p target s
  | .release target => storeRelease p target s
  | .pushHold zone target locked holdEnd minutes => storePushHold p zone target locked holdEnd minutes s
  | .cancelHold zone => storeCancelHold zone s
  | .cancelBoost zone => storeCancelBoost zone s
  | .setTime minute seconds => storeSetTime p minute seconds s
  | .releaseTime => storeReleaseTime p s
  | .configure items => storeConfigure p items s
  | _ => (s, .done)

/-- The Program Store step of a port reset (R76). -/
def freeAll (p : Port) (s : State) : State :=
  let s := forEach allClaims (fun c s => if s.holds p c then s.setClaim c none else s) s
  if s.clock.authority = some p then s.freeAuthority else s

/-! ### Requests of the Report Processor and the Contact Monitor -/

/-- A boost request (R50, R51). -/
def storeBoost (u : UnitIx) (z : Zone) (delta : Byte) (duration : Half) (s : State) : Answer :=
  if s.zones[z].serviceMode ≠ .inService then (s, .boosted .zoneOff)
  else if s.store.overrides[z].hold.any (·.locked) then (s, .boosted .locked)
  else
    (settle false z
      (s.modStack z fun k => { k with boost := some ⟨boostDelta delta, boostDuration duration, u⟩ }),
      .boosted .accepted)

/-- Every BOOST owned by an index removed (R52, R53). -/
def removeBoosts (u : UnitIx) (s : State) : State :=
  forEach allZones (fun z s =>
    if s.store.overrides[z].boost.any fun b => b.owner == u then
      settle false z (s.modStack z fun k => { k with boost := none })
    else s) s

/-- A window push or removal (R55, R56). -/
def storeWindow (z : Zone) (kind : OrderKind) (s : State) : State :=
  if s.store.overrides[z].window = (kind == .push) then s
  else settle false z (s.modStack z fun k => { k with window := kind == .push })

/-! ### Carrying out and granting (R70 to R73) -/

/-- A request carried out whole (R73). -/
def carryOut (r : StoreReq) (s : State) : Answer :=
  match r with
  | .host p r => storeHost p r s
  | .check p _ c => (s, .checked (s.holds p c))
  | .resetStep p => (freeAll p s, .done)
  | .boost u z delta duration => storeBoost u z delta duration s
  | .boostCancel u => (removeBoosts u s, .done)
  | .ownerRemoval u _ => (removeBoosts u s, .done)
  | .window z kind => (storeWindow z kind s, .done)
  | .minuteEval m => (minuteEvaluation m s, .done)

/-- When the Contact Monitor's or the Report Processor's waiting request is granted, the head of its own
list is placed and waits (R87, R116). -/
def refill (q : Requester) (s : State) : State :=
  match q with
  | .contact =>
    match s.contacts.pendingOrders with
    | o :: rest =>
      joinWaiting .contact (.window o.zone o.kind)
        { s with contacts := { s.contacts with pendingOrders := rest } }
    | [] => s
  | .report =>
    match s.report.storeOrders with
    | r :: rest => joinWaiting .report r { s with report := { s.report with storeOrders := rest } }
    | [] => s
  | _ => s

/-- A grant (R72): the request leaves the waiting set, its requester is parked, it is carried out. -/
def grant (q : Requester) (r : StoreReq) (s : State) : State :=
  let s := s.setWaiting q none
  let s := { s with arbiter := { s.arbiter with parked := q } }
  let a := carryOut r s
  refill q { a.1 with arbiter := { a.1.arbiter with carrying := some ⟨r, a.2⟩ } }

/-- The waiting request that comes first in the ring after the parked requester (R72). -/
def Arbiter.next (a : Arbiter) : Option (Requester × StoreReq) :=
  a.parked.ringAfter.findSome? fun q => (a.waiting.get q).map fun r => (q, r)

def grantNext (s : State) : State :=
  match s.arbiter.next with
  | some (q, r) => grant q r s
  | none => s

/-- A request placed at the arbiter: granted at once when the arbiter is idle (R72). -/
def place (q : Requester) (r : StoreReq) (s : State) : State :=
  let s := joinWaiting q r s
  if s.arbiter.carrying.isNone then grantNext s else s

end Sys2Proof.Machine
end

