-- ==== Sys2Proof/Machine/ContactOps.lean ====
section
/-! DEFINITION. The Contact Monitor's shared operations (chapter 5): window orders, the sample event and the
application of new settings. -/

namespace Sys2Proof.Machine

def State.modInput (s : State) (i : Zone) (f : InputWork → InputWork) : State :=
  { s with contacts := { s.contacts with inputs := s.contacts.inputs.set i (f s.contacts.inputs[i]) } }

def State.setOrders (s : State) (l : List WindowOrder) : State :=
  { s with contacts := { s.contacts with pendingOrders := l } }

/-- A window order raised (R86, R87): window_asserted set; the order cancels with an entry of its zone,
is placed at once, or is appended. -/
def raiseOrder (z : Zone) (kind : OrderKind) (s : State) : State :=
  let s := s.modInput z fun i => { i with windowAsserted := kind == .push }
  let l := s.contacts.pendingOrders
  if l.any fun o => o.zone == z then s.setOrders (l.filter fun o => o.zone != z)
  else if l.isEmpty && s.arbiter.waiting.contact.isNone then place .contact (.window z kind) s
  else s.setOrders (l ++ [⟨z, kind⟩])

/-- The push order of an open edge without delay or of a timer that has run (R83). -/
def pushIfFree (z : Zone) (s : State) : State :=
  if s.contacts.inputs[z].windowAsserted then s else raiseOrder z .push s

/-- The removal order of a close edge or of an input disabled (R84, R85). -/
def removeIfAsserted (z : Zone) (s : State) : State :=
  if s.contacts.inputs[z].windowAsserted then raiseOrder z .remove s else s

/-- The CONTACT_CHANGED notice of an accepted edge (R82). -/
def edgeNotice (z : Zone) (k : ContactSettings) (c : ContactState) (s : State) : State :=
  let on := match c with
    | .isOpen => k.openEdgeNotice
    | .isClosed => k.closeEdgeNotice
  if on then raise .contactChanged (.zone z) [c.code] s else s

/-- An edge accepted (R81): the notice first, then the timer and the orders (R83, R84). -/
def acceptEdge (z : Zone) (k : ContactSettings) (c : ContactState) (s : State) : State :=
  let s := edgeNotice z k c (s.modInput z fun i => { i with stableState := c, run := 0 })
  match c with
  | .isOpen =>
    if k.windowDelay = 0 then pushIfFree z s else s.modInput z fun i => { i with openTimer := some 0 }
  | .isClosed => removeIfAsserted z (s.modInput z fun i => { i with openTimer := none })

/-- The edge a reading gives, if it is the debounce-th that disagrees (R81). -/
def InputWork.edge (i : InputWork) (k : ContactSettings) (reading : ContactState) : Bool :=
  reading != i.stableState && decide (k.debounce ≤ i.run + 1)

/-- A running timer's sample: its elapsed time in quarter seconds goes up, and at window_delay it stops and
the push order is raised (R83). -/
def runTimer (z : Zone) (k : ContactSettings) (s : State) : State :=
  match s.contacts.inputs[z].openTimer with
  | some e =>
    if 4 * k.windowDelay ≤ e + 1 then pushIfFree z (s.modInput z fun i => { i with openTimer := none })
    else s.modInput z fun i => { i with openTimer := some (e + 1) }
  | none => s

/-- One enabled input at a sample event (R80, R81). A close edge accepted at the sample at which the delay
would run out stops the timer first (log 16). -/
def sampleInput (levels : BitVec 16) (z : Zone) (s : State) : State :=
  let k := s.taken.contacts[z]
  if k.enable then
    let i := s.contacts.inputs[z]
    let reading := readContact k.polarity (levels.getLsbD z.val)
    if i.edge k reading then acceptEdge z k reading s
    else
      runTimer z k (s.modInput z fun i => { i with run := if reading = i.stableState then 0 else i.run + 1 })
  else s

/-- The sample event (R80): the enabled inputs in increasing number. -/
def sample (levels : BitVec 16) (s : State) : State :=
  forEach allZones (sampleInput levels)
    { s with contacts := { s.contacts with samples := s.contacts.samples + 1 } }

/-- An input's delay runs out at the sample with these levels (R83). -/
def State.delayRunsOut (s : State) (z : Zone) (levels : BitVec 16) : Bool :=
  let k := s.taken.contacts[z]
  let i := s.contacts.inputs[z]
  k.enable && !i.edge k (readContact k.polarity (levels.getLsbD z.val)) &&
    (match i.openTimer with
      | some e => decide (4 * k.windowDelay ≤ e + 1)
      | none => false)

/-- New settings of one input applied (R79, R85): only a change of enable from on to off acts at once. -/
def applySettings (old : Vector ContactSettings 16) (z : Zone) (s : State) : State :=
  if old[z].enable && !s.taken.contacts[z].enable then
    removeIfAsserted z
      (s.modInput z fun i => { i with openTimer := none, stableState := .isClosed, run := 0 })
  else s

end Sys2Proof.Machine
end

