-- ==== Sys2Proof/Machine/ClockOps.lean ====
section
/-! DEFINITION. The Clock's events and what takes them (R23 to R25, R66, R74, R128, R157, R173). -/

namespace Sys2Proof.Machine

/-- The tick of the next second event (R23). -/
def State.nextSecond (s : State) : Nat := (s.clock.secondsTaken + 1) * Config.hz

/-- The seconds count; at 60 it returns to 0 and the minute of week advances (R23). -/
def Clock.tickSecond (c : Clock) : Clock :=
  let c := { c with secondsTaken := c.secondsTaken + 1 }
  if 59 ≤ c.seconds then { c with seconds := 0, minute := (c.minute + 1) % 10080 }
  else { c with seconds := c.seconds + 1 }

/-- A claim at a second event (R66): lowered unless frozen; at 0 it lapses, and its former holder is told. A count
of 1 stands while a CLAIM of the holder for the claim is under way: it cannot run out then (log 6). -/
def lapseClaim (c : ClaimIx) (s : State) : State :=
  match s.store.claims[c] with
  | some h =>
    if h.frozen ∨ h.remaining ≤ 1 ∧ s.claimUnderWay h.holder c then s
    else if h.remaining ≤ 1 then raiseTo h.holder .claimLapsed (.port h.holder) [encFin c] (s.setClaim c none)
    else s.setClaim c (some { h with remaining := h.remaining - 1 })
  | none => s

/-- The minute evaluation requested (R25), merging with one that waits (R74). -/
def requestEvaluation (s : State) : State :=
  match s.arbiter.waiting.clock with
  | some (.minuteEval m) => s.setWaiting .clock (some (.minuteEval (m + 1)))
  | _ => place .clock (.minuteEval 1) s

/-- A channel that has stood still for a week in a zone that does not call (R157). -/
def State.exercised (s : State) (c : Channel) : Bool :=
  let r := s.channel c
  r.state == .idle &&
    (match r.zone with
      | some z => s.zones[z].callState == .idle
      | none => false) &&
    (match r.lastMoved with
      | some t => decide (t + 604800 ≤ s.now)
      | none => false)

/-- The three SERVICE entries of an exercise. -/
def exerciseEntries : List Entry := [.moveTo 100 .service, .dwell 30, .moveTo 0 .service]

/-- The Valve Drive Unit's test at a minute event (R157). -/
def exercise (s : State) : State :=
  if s.clock.minute % 1440 = 180 ∧ s.taken.exerciseEnable = true ∧ s.clock.timeValid = true then
    forEach allChannels (fun c s => if s.exercised c then appendEntries c exerciseEntries s else s) s
  else s

/-- A midnight event clears resets_today (R23, R173). -/
def midnight (s : State) : State :=
  if s.clock.minute % 1440 = 0 then s.modFiring fun f => { f with resetsToday := 0 } else s

/-- The takers of a minute event, in the order of R24 (log 7). -/
def takeMinute (s : State) : State := midnight (exercise (requestEvaluation s))

/-- The takers of a second event, in the order of R24, then those of the minute event it may be (log 7). -/
def takeSecond (s : State) : State :=
  let minute := decide (59 ≤ s.clock.seconds)
  let s := { s with clock := s.clock.tickSecond }
  let s := forEach allUnits ageUnit (forEach allClaims lapseClaim s)
  if minute then takeMinute s else s

/-- The second event at its moment. -/
def secondAt (s : State) : State := takeSecond (runTo s.nextSecond s)

/-- What the device does with no command waiting: one period of its crystal passes (log 1). -/
def idle (s : State) : State := runTo (s.clock.ticks + 1) s

end Sys2Proof.Machine
end

