-- ==== Sys2Proof/Machine/ClockEvents.lean ====
section
/-! DEFINITION. The Clock's events, and the claims and units they act on (R23 to R25, R66, R128). Rows that
are one case of a second event are that event taken whole, when the case is met (log 3). -/

namespace Sys2Proof.Machine

/-- SECOND_EVENT (R23). -/
def execSecondEvent (s : State) : Host.Outcome State Fault Refusal := .next (secondAt s)

/-- MINUTE_EVENT (R25): the second event at which the seconds count reaches 60. -/
def execMinuteEvent (s : State) : Host.Outcome State Fault Refusal :=
  .next (if 59 ≤ s.clock.seconds then secondAt s else s)

/-- The claim lapses at the next second event (R66). -/
def State.lapses (s : State) (c : ClaimIx) : Bool :=
  match s.store.claims[c] with
  | some h => !h.frozen && decide (h.remaining ≤ 1) && !s.claimUnderWay h.holder c
  | none => false

/-- CLAIM_LAPSE (R66). -/
def execClaimLapse (claim : ClaimIx) (s : State) : Host.Outcome State Fault Refusal :=
  .next (if s.lapses claim then secondAt s else s)

/-- The unit's freshness changes at the next second event (R128). -/
def State.ages (s : State) (u : UnitIx) : Bool :=
  match s.report.registry[u] with
  | some r =>
    match r.lastReport with
    | some t =>
      agedFreshness r.freshness ((runTo s.nextSecond s).now - t) s.taken.staleAge s.taken.lostAge != r.freshness
    | none => false
  | none => false

/-- UNIT_FRESHNESS_AGING (R128). -/
def execUnitFreshnessAging (index : UnitIx) (s : State) : Host.Outcome State Fault Refusal :=
  .next (if s.ages index then secondAt s else s)

end Sys2Proof.Machine
end

