-- ==== Sys2Proof/Machine/ContactEvents.lean ====
section
/-! DEFINITION. The Contact Monitor's events (R80, R83). Bit n of the levels is the level of pin CIn. -/

namespace Sys2Proof.Machine

/-- The tick of the next sample event, every 250 ms (R80). -/
def State.sampleDue (s : State) : Nat := (s.contacts.samples + 1) * (Config.hz / 4)

/-- The sample event at its moment. -/
def sampleAt (levels : BitVec 16) (s : State) : State := sample levels (runTo s.sampleDue s)

/-- SAMPLE_EVENT (R80). -/
def execSampleEvent (levels : BitVec 16) (s : State) : Host.Outcome State Fault Refusal :=
  .next (sampleAt levels s)

/-- WINDOW_DELAY_EXPIRY (R83): the sample event at which the input's delay runs out (log 3). -/
def execWindowDelayExpiry (input : Zone) (levels : BitVec 16) (s : State) : Host.Outcome State Fault Refusal :=
  .next (if s.delayRunsOut input levels then sampleAt levels s else s)

end Sys2Proof.Machine
end

