-- ==== Sys2Proof/Machine/DemandOps.lean ====
section
/-! DEFINITION. The Demand Unit's evaluation, step by step as R8 numbers it (chapter 1). -/

namespace Sys2Proof.Machine

def channelsOf (z : Zone) (s : State) : List Channel := allChannels.filter fun c => (s.channel c).zone = some z

/-- Entry into frost emergency (R20, 1 to 4): the flag, an urgent open in every channel of the zone, the
notice, and the Firing Controller told, at once or (`first` no) after the call update (R170, log 8). Where several
zones enter at one event, the urgent entries go zone by zone in the order of the evaluation (R7), the channels of
each in increasing number (R150; log 34). -/
def enterFrost (first : Bool) (z : Zone) (s : State) : State :=
  let s := s.modZone z fun r => { r with frostEmergency := true }
  let s := forEach (channelsOf z s) (placeUrgent 100) s
  let s := raise .frostEmergency (.zone z) [] s
  if first then frostEvent s else s

/-- Step 1: the frost test (R20, R22). -/
def frostStep (first : Bool) (z : Zone) (s : State) : State :=
  if frostExit s.zones[z] s.taken.frostFloor then
    s.modZone z fun r => { r with frostEmergency := false }
  else if frostEntry s.zones[z] s.taken.frostFloor then enterFrost first z s
  else s

/-- Steps 2 and 3: demand and call state of a zone record (R10 to R12, R21). -/
def demandStep (taken : Params) (r : ZoneRecord) : ZoneRecord :=
  if r.frostEmergency then { r with demand := 100, callState := .calling }
  else
    let d := ordinaryDemand r taken.frostFloor taken.propBand taken.blindOpening
    { r with demand := d, callState := nextCall r.callState d taken.callOn taken.callOff }

/-- Step 4: the heat call list (R14, R20). -/
def listStep (entered : Bool) (z : Zone) (old new : CallState) (l : List Zone) : List Zone :=
  if entered then z :: l.filter (· ≠ z)
  else
    match old, new with
    | .idle, .calling => l ++ [z]
    | .calling, .idle => l.filter (· ≠ z)
    | _, _ => l

def State.setHeatList (s : State) (l : List Zone) : State :=
  { s with demand := { s.demand with heatList := l } }

/-- Steps 1 to 4 for one zone. -/
def evaluateZone (first : Bool) (z : Zone) (s : State) : State :=
  let before := s.zones[z]
  let entered := !frostExit before s.taken.frostFloor && frostEntry before s.taken.frostFloor
  let s := frostStep first z s
  let s := s.modZone z (demandStep s.taken)
  s.setHeatList (listStep entered z before.callState s.zones[z].callState s.demand.heatList)

/-- served of a zone (R15). -/
def State.servedNow (s : State) (z : Zone) : Bool :=
  z ∈ s.demand.heatList.take s.taken.servedLimit || s.zones[z].frostEmergency

/-- The zones whose served value step 5 changes. -/
def servedChanges (s : State) : List Zone := allZones.filter fun z => s.zones[z].served != s.servedNow z

/-- Step 5: served written for every zone. -/
def writeServed (s : State) : State :=
  forEach allZones (fun z s => s.modZone z fun r => { r with served := s.servedNow z }) s

/-- A loop move computed and, when worth a movement, issued (R17, R18). -/
def issueLoopMove (z : Zone) (c : Channel) (s : State) : State :=
  let r := s.channel c
  let p := requestedPosition s.zones[z] r.minPos r.maxPos
  match r.state with
  | .idle | .waiting | .moving | .dwelling =>
    if r.calibrated ∧ worthIssuing s.demand.lastIssued[c] p s.taken.deadband then placeLoopMove c p s else s
  | _ => s

/-- Step 6 for one zone: its channels, in increasing number (log 23). -/
def loopMoves (z : Zone) (s : State) : State := forEach (channelsOf z s) (issueLoopMove z) s

def repeatOp : Nat → (State → State) → State → State
  | 0, _, s => s
  | n + 1, f, s => repeatOp n f (f s)

/-- Steps 5 and 6: served for the whole list, the call update (R164), the frost events taken after it, and
the loop moves of the zones chosen from those whose served changed. -/
def finishEvaluation (late : Nat) (movesFor : List Zone → List Zone) (s : State) : State :=
  let changed := servedChanges s
  let s := repeatOp late frostEvent (callUpdate (writeServed s))
  forEach (movesFor changed) loopMoves s

/-- The zones among some that enter frost emergency when they are evaluated. -/
def enteringZones (l : List Zone) (s : State) : List Zone :=
  l.filter fun z => frostEntry s.zones[z] s.taken.frostFloor

/-- A whole evaluation of some zones: steps 1 to 4 for each, then steps 5 and 6. The free choice of R170 is
consulted once, for the frost events of the evaluation. -/
def evaluation (zones : List Zone) (movesFor : List Zone → List Zone) (s : State) : State :=
  let first := Config.frostFirst s.demand.choices
  let late := (enteringZones zones s).length
  let s := { s with demand := { s.demand with choices := s.demand.choices + 1 } }
  let s := forEach zones (evaluateZone first) s
  finishEvaluation (if late = 0 then 0 else if first then 0 else late) movesFor s

end Sys2Proof.Machine
end

