-- ==== Sys2Proof/Machine/DemandEvents.lean ====
section
/-! DEFINITION. The Demand Unit's events (R7 to R9). -/

namespace Sys2Proof.Machine

/-- The tick at which the loop timer expires (R7). -/
def State.loopDue (s : State) : Nat := s.demand.loopStart + s.taken.loopPeriod * Config.hz

/-- A loop event: all 16 zones, served once, then the loop moves of every zone (R7). -/
def loopAt (s : State) : State :=
  let due := s.loopDue
  let s := runTo due s
  evaluation allZones (fun _ => allZones) { s with demand := { s.demand with loopStart := due, loopRan := true } }

/-- LOOP_EVENT (R7). -/
def execLoopEvent (s : State) : Host.Outcome State Fault Refusal := .next (loopAt s)

/-- A zone event: steps 1 to 6 for one zone, the loop moves for it and then for the other zones whose served
value changed (R8, log 23). -/
def zoneEventOf (z : Zone) (s : State) : State :=
  evaluation [z] (fun changed => z :: changed.filter (· ≠ z))
    { s with demand := { s.demand with zoneEvents := s.demand.zoneEvents.filter (· ≠ z) } }

/-- ZONE_EVENT (R8): when one waits for the zone. -/
def execZoneEvent (zone : Zone) (s : State) : Host.Outcome State Fault Refusal :=
  .next (if zone ∈ s.demand.zoneEvents then zoneEventOf zone s else s)

end Sys2Proof.Machine
end

