-- ==== Sys2Proof/Machine/Replies.lean ====
section
/-! DEFINITION. The bodies of the replies that read the state (R3, R30, R88, R124, R156, R181, R194, R195,
R198). Where R200 and R201 leave a layout open it is that of log 12. -/

namespace Sys2Proof.Machine

/-- IDENTIFY (R195): vendor and part code in two bytes each, the revision in one (log 12). -/
def identifyBody (p : Port) (s : State) : List Byte :=
  enc16 0x0C4E ++ enc16 0x2416 ++ [3, encPort p, encFlag (s.port p).otherSeen]

/-- The zone's place on the heat call list, 1 being the head (R3). -/
def State.listPosition (s : State) (z : Zone) : Option Nat :=
  (s.demand.heatList.findIdx? (· == z)).map (· + 1)

/-- READ_ZONE (R3): the record in the order of the table of section 1.1, then list_position. -/
def zoneBody (z : Zone) (s : State) : List Byte :=
  let r := s.zones[z]
  [encFin z, r.serviceMode.code] ++ encTemp r.defaultTarget ++ [encFinOpt r.primaryUnit] ++
    encTemp r.baseTarget ++ [r.baseSource.code] ++ encTemp r.resolvedTarget ++ [r.resolvedBasis.code] ++
    encTempOpt r.measured ++
    [r.measureState.code, encFinOpt r.measureUnit, enc8 r.demand, r.callState.code, encFlag r.served,
      encFlag r.frostEmergency, encFlag r.flowReady, enc8 r.valveCount,
      encUncoded .listPosition (s.listPosition z)]

/-- READ_TIME (R30). -/
def timeBody (s : State) : List Byte :=
  let c := s.clock
  enc16 c.minute ++ [enc8 c.seconds, enc8 (c.minute / 1440)] ++ enc16 (c.minute % 1440) ++
    [encFlag c.timeValid, encPortOpt c.authority]

/-- The open_timer of an input: stopped is sent as none (log 42), an elapsed time of whole seconds as their number
(R200); the code of one with a part of a second is free (log 11). -/
def openTimerBytes : Option Nat → List Byte
  | some q => if q % 4 = 0 then enc16 (q / 4) else be16 (Config.openTimerCode q)
  | none => enc16Opt none

/-- One contact input: its settings, then its working fields (R88). -/
def contactBytes (z : Zone) (s : State) : List Byte :=
  let i := s.contacts.inputs[z]
  ([29, 30, 31, 32, 33, 34].flatMap fun n => encParam n (s.written.get n z)) ++
    [i.stableState.code, enc8 i.run] ++ openTimerBytes i.openTimer ++ [encFlag i.windowAsserted]

def WindowOrder.bytes (o : WindowOrder) : List Byte := [encFin o.zone, o.kind.code]

/-- The Contact Monitor's requests at the arbiter: being carried out, then waiting (R88). -/
def State.contactRequests (s : State) : List WindowOrder :=
  let order : Option StoreReq → List WindowOrder
    | some (.window z k) => [⟨z, k⟩]
    | _ => []
  order (s.arbiter.carrying.map (·.req)) ++ order s.arbiter.waiting.contact

/-- READ_CONFIG (R198): the device parameters by number, the contacts, the pending order list and the
Contact Monitor's request. -/
def configBody (s : State) : List Byte :=
  ((List.range 29).flatMap fun n => encParam n (s.written.get n 0)) ++
    (allZones.flatMap fun z => contactBytes z s) ++ encList WindowOrder.bytes s.contacts.pendingOrders ++
    encList WindowOrder.bytes s.contactRequests

def Role.code : Role → Byte
  | .sensor => 0 | .panel => 1

/-- FREE 0, PENDING 1, ACTIVE 2 (R119). -/
def unitStateCode : Option UnitRecord → Byte
  | none => 0
  | some r =>
    match r.state with
    | .pending => 1
    | .active .. => 2

/-- The role of a unit, none while PENDING. -/
def UnitRecord.roleByte (r : UnitRecord) : Byte :=
  match r.state with
  | .active _ role => role.code
  | .pending => Config.uncoded .role

/-- The fields of an occupied record (R119, the state given once), and the age of its last report. -/
def UnitRecord.bytes (r : UnitRecord) (now : Nat) : List Byte :=
  [r.address] ++ be32 r.serial ++ [r.unitType, encFinOpt r.zone, r.roleByte] ++ encTempOpt r.lastTemp ++
    [encUncoded .humidity (r.lastHumidity.map (·.toNat))] ++ enc32Opt r.lastReport ++
    [r.freshness.code, enc8 r.implausibleCount, encFlag r.faulty] ++
    encSecondsOpt (r.lastReport.map (now - ·))

/-- The record as R124 reports it: index, state and, when occupied, its fields. -/
def unitRecordBody (u : UnitIx) (s : State) : List Byte :=
  let r := s.report.registry[u]
  [encFin u, unitStateCode r] ++ (match r with
    | some r => r.bytes s.now
    | none => [])

/-- The zones whose measurement the unit gives; a FREE record gives none. -/
def measuredZones (u : UnitIx) (s : State) : List Byte :=
  match s.report.registry[u] with
  | some _ => encList (fun z => [encFin z]) (allZones.filter fun z => s.zones[z].measureUnit == some u)
  | none => []

/-- UNIT_READ (R124). -/
def unitBody (u : UnitIx) (s : State) : List Byte :=
  unitRecordBody u s ++ measuredZones u s ++
    [enc8 s.receiveCount, s.report.holdOff.code,
      enc8 (allUnits.filter fun i => (s.report.registry[i]).isSome).length]

/-- An entry's kind and contents; a LOOP MOVE_TO with whether it is unstarted. -/
def Entry.bytes (unstarted : Bool) : Entry → List Byte
  | .moveTo p .loop => [0, enc8 p, 0, encFlag unstarted]
  | .moveTo p .service => [0, enc8 p, 1]
  | .moveTo p .urgent => [0, enc8 p]
  | .dwell d => 1 :: enc16 d
  | .seekClosed => [2]
  | .mark owner tag => [3, encPort owner, tag]

/-- The entry in progress, with whether it came from the urgent slot, its start second and, for a movement,
its start position, effective target and slot. -/
def InProgress.bytes (i : InProgress) : List Byte :=
  let entry := match i.entry with
    | .moveTo p _ => [0, enc8 p]
    | e => e.bytes false
  let urgent := match i.entry with
    | .moveTo _ .urgent => true
    | _ => false
  entry ++ [encFlag urgent] ++ enc32 i.startSecond ++
    (match i.move with
      | some m => [encUncoded .position m.start, enc8 m.target, encFin m.slot]
      | none => [])

/-- What R156 adds while MOVING, and while DWELLING; a channel not calibrated has no estimate (R147). -/
def InProgress.running (i : InProgress) (calibrated : Bool) (ticks : Nat) : List Byte :=
  match i.move, i.entry with
  | some m, _ =>
    [encFin m.slot, enc8 m.target, directionCode m] ++ enc16 (wholeSeconds (ticks - i.startTick)) ++
      [encUncoded .position (if calibrated then m.estimate (ticks - i.startTick) else none)]
  | none, .dwell d => enc16 (wholeSeconds (i.startTick + d * Config.hz - ticks))
  | none, _ => []

/-- The queue, head first; the entry in progress stands at the head started. -/
def ChannelRecord.queueBytes (r : ChannelRecord) : List Byte :=
  let n := if r.headStarted then 1 else 0
  enc8 r.queue.length :: ((r.queue.take n).flatMap (Entry.bytes false) ++
    (r.queue.drop n).flatMap (Entry.bytes true))

/-- A channel's record as VALVE_READ reports it (R134, R156): the queue and the urgent slot once, after what is
given while MOVING and DWELLING (log 12). -/
def channelRecordBody (c : Channel) (s : State) : List Byte :=
  let r := s.channel c
  [encFinOpt r.zone, r.state.code, encFlag r.calibrated, encUncoded .position r.position] ++
    enc16 r.fullStroke ++ [enc8 r.minPos, enc8 r.maxPos] ++ enc32Opt r.lastMoved ++
    [encFlag r.openConfirmed] ++ presence InProgress.bytes r.inProgress ++
    (match r.inProgress with
      | some i => i.running r.calibrated s.clock.ticks
      | none => []) ++
    r.queueBytes ++ presence (fun p => [enc8 p]) r.urgent ++
    [encUncoded .listPlace ((s.valves.waiting.findIdx? (· == c)).map (· + 1))] ++
    encSecondsOpt (r.lastMoved.map (s.now - ·)) ++
    (match r.zone with
      | some z => [encFlag s.zones[z].flowReady]
      | none => [])

/-- VALVE_READ (R156): the record, the three slots and the length of the waiting list. A slot that R156 names free is
sent as 0xFF, the code of a channel that is none (log 47). -/
def channelBody (c : Channel) (s : State) : List Byte :=
  channelRecordBody c s ++ ((List.finRange 3).map fun i => encFinOpt s.valves.slots[i]) ++
    [enc8 s.valves.waiting.length]

/-- The seconds a timer held as its end tick has left; those of a stopped timer are sent as a duration's none
(log 42). -/
def timerBytes (ticks : Nat) (t : Option Nat) : List Byte := enc16Opt (t.map fun e => wholeSeconds (e - ticks))

/-- The seconds of min_off left, none when it has elapsed. -/
def State.minOffLeft (s : State) : Option Nat :=
  match s.firing.offSince with
  | some t => if t + s.taken.minOff ≤ s.now then none else some (t + s.taken.minOff - s.now)
  | none => none

/-- The last status as FIRING_READ carries it (R181): its five fields and its age, without the second count at which
it arrived (R159), which the age stands for (log 49). -/
def LastStatus.bytes (l : LastStatus) (now : Nat) : List Byte :=
  [encFlag l.status.flame, encFlag l.status.lockout, enc8 l.status.flow, enc8 l.status.ret,
    l.status.faultCode] ++ encSeconds (now - l.arrival)

/-- FIRING_READ (R181). -/
def firingBody (s : State) : List Byte :=
  let f := s.firing
  [f.state.code] ++ encSeconds (s.now - f.stateEntered) ++
    [encFlag f.heatRequest, encFlag f.pumpRequest, enc8 f.setpoint] ++
    encList (fun z => [encFin z]) f.runoutSet ++ timerBytes s.clock.ticks f.runoutTimer ++
    encSecondsOpt (f.offSince.map (s.now - ·)) ++ enc16Opt s.minOffLeft ++
    timerBytes s.clock.ticks f.lockoutPumpTimer ++
    [encFlag f.dump, encFlag f.frostSkip, enc8 f.resetsToday, encFlag f.pendingReset,
      if s.link.up then 0 else 1, enc8 s.link.missCount] ++
    presence (·.bytes s.now) s.link.lastStatus

/-- The fault record of a port (R194). -/
def FaultRecord.bytes (f : FaultRecord) : List Byte :=
  [encKind f.kind, f.status.code, f.subject.getD 0xFF] ++ enc32 f.arisen ++ [enc8 f.later]

def faultBody (p : Port) (s : State) : List Byte := presence FaultRecord.bytes (s.port p).fault

/-- The whole mask and the number of notices queued (R192). -/
def maskBody (p : Port) (s : State) : List Byte :=
  ((s.port p).mask.toList.map encFlag) ++ [enc8 (s.port p).notices.length]

end Sys2Proof.Machine
end

