-- ==== Sys2Proof/Machine/RequestOps.lean ====
section
/-! DEFINITION. The ports (chapter 10): taking a request, handing it to its owner, the requests answered when
they are taken, and the requests carried out after a claim check. -/

namespace Sys2Proof.Machine

/-! ### Requests answered when taken -/

/-- A reply at the event at which the request is taken. -/
def replyOk (p : Port) (body : List Byte) (s : State) : State := deliver p .ok body s

def replyRange (p : Port) (s : State) : State := deliver p .range [] s

/-- READ_ZONE (R3). -/
def takeReadZone (p : Port) (zone : Byte) (s : State) : State :=
  match zone? zone with
  | some z => replyOk p (zoneBody z s) s
  | none => replyRange p s

/-- UNIT_READ (R124). -/
def takeUnitRead (p : Port) (index : Byte) (s : State) : State :=
  match unit? index with
  | some u => replyOk p (unitBody u s) s
  | none => replyRange p s

/-- VALVE_READ (R156). -/
def takeValveRead (p : Port) (channel : Byte) (s : State) : State :=
  match channel? channel with
  | some c => replyOk p (channelBody c s) s
  | none => replyRange p s

/-- VALVE_CLEAR (R155). -/
def takeValveClear (p : Port) (channel : Byte) (s : State) : State :=
  match channel? channel with
  | some c =>
    if (s.channel c).state = .fault then
      replyOk p [] (enterUncalibrated c (s.modChannel c fun r => { r with position := none }))
    else deliver p .state [] s
  | none => replyRange p s

/-- CLEAR_LOCKOUT (R173). -/
def takeClearLockout (p : Port) (s : State) : State :=
  if s.firing.state = .lockout then
    if s.firing.resetsToday < 3 then
      let s := s.modFiring fun f => { f with pendingReset := true, resetsToday := f.resetsToday + 1 }
      replyOk p [enc8 s.firing.resetsToday] s
    else deliver p .limit [] s
  else deliver p .state [] s

/-- The entries of NOTICE_MASK read; none when a kind number is above 21 or named twice, or a value is no
on/off (R192, R200). -/
def maskEntries (entries : List MaskEntry) : Option (List (Fin 22 × Bool)) :=
  (all? (entries.map fun e => (fin? 22 e.kind).bind fun k => (flag? e.enabled).map fun b => (k, b))).filter
    fun l => firstRepeat [] 0 (l.map (·.1)) == none

def writeMask (m : Vector Bool 22) (l : List (Fin 22 × Bool)) : Vector Bool 22 :=
  l.foldl (fun m e => m.set e.1 e.2) m

/-- The queue with every notice of a disabled kind removed; a notice chosen by a FETCH still running stays at
the head (R192). -/
def PortState.purged (p : PortState) : List Notice :=
  let keep := fun n : Notice => p.mask[n.kind.number]
  match p.fetch with
  | some ⟨.notice _, _, _, false⟩ => p.notices.take 1 ++ (p.notices.drop 1).filter keep
  | _ => p.notices.filter keep

/-- NOTICE_MASK (R192). -/
def takeNoticeMask (p : Port) (entries : List MaskEntry) (purge : Byte) (s : State) : State :=
  match maskEntries entries, flag? purge with
  | some l, some pg =>
    if 1 ≤ entries.length ∧ entries.length ≤ 22 then
      let s := s.modPort p fun ps => { ps with mask := writeMask ps.mask l }
      let s := if pg then s.modPort p fun ps => { ps with notices := ps.purged } else s
      replyOk p (maskBody p s) s
    else replyRange p s
  | _, _ => replyRange p s

/-- FAULT_READ (R194). -/
def takeFaultRead (p : Port) (clear : Byte) (s : State) : State :=
  match flag? clear with
  | some b =>
    let body := faultBody p s
    replyOk p body (if b then s.modPort p fun ps => { ps with fault := none } else s)
  | none => replyRange p s

/-! ### Handing over (R70, R187) -/

/-- A claim check placed in the port's name, freezing the claim when the port holds it (R68, R70). -/
def placeCheck (p : Port) (r : HostReq) (c : ClaimIx) (s : State) : State := place p.requester (.check p r c) s

/-- VALVE_SERVICE: the channel number finds the claim (R69). -/
def takeValveService (p : Port) (channel : Byte) (r : HostReq) (s : State) : State :=
  match channel? channel with
  | some c => placeCheck p r (claimOfChannel c s) s
  | none => replyRange p s

/-- A taken request reaches its owner (the table of section 10.3). -/
def handOver (p : Port) (r : HostReq) (s : State) : State :=
  match r with
  | .identify => replyOk p (identifyBody p s) s
  | .readZone zone => takeReadZone p zone s
  | .readTime => replyOk p (timeBody s) s
  | .readConfig => replyOk p (configBody s) s
  | .unitRead index => takeUnitRead p index s
  | .valveClear channel => takeValveClear p channel s
  | .valveRead channel => takeValveRead p channel s
  | .firingRead => replyOk p (firingBody s) s
  | .clearLockout => takeClearLockout p s
  | .noticeMask entries purge => takeNoticeMask p entries purge s
  | .faultRead clear => takeFaultRead p clear s
  | .unitAdmit .. => placeCheck p r configClaim s
  | .unitRemove _ => placeCheck p r configClaim s
  | .valveAssign .. => placeCheck p r configClaim s
  | .valveService channel _ => takeValveService p channel r s
  | .portReset => place p.requester (.resetStep p) s
  | _ => place p.requester (.host p r) s

/-! ### Taking (R185, R186, R199) -/

/-- The request becomes the port's outstanding one. -/
def PortState.taking (r : HostReq) (p : PortState) : PortState :=
  { p with slot := some r, request := .inFlight, resetPending := p.resetPending || r == .portReset }

/-- A frame dropped as BUSY (R186): recorded, without reply. -/
def dropBusy (p : Port) (kind : Option Byte) (s : State) : State :=
  s.modPort p (PortState.recordRefusal kind .busy none s.now)

/-- A PORT_RESET taken while a request is outstanding (R199). -/
def takeReset (p : Port) (s : State) : State :=
  match (s.port p).request with
  | .inFlight => s.modPort p fun ps => { ps with resetPending := true, discard := true }
  | _ => handOver p .portReset (s.modPort p fun ps => { ps with reply := none }.taking .portReset)

/-- A good frame sets the other port's other_seen (R185). -/
def seen (p : Port) (s : State) : State := s.modPort p.other fun ps => { ps with otherSeen := true }

/-- A good frame at the end of its transaction (R186). -/
def takeRequest (p : Port) (r : HostReq) (s : State) : State :=
  let s := seen p s
  match (s.port p).request with
  | .idle => handOver p r (s.modPort p (PortState.taking r))
  | _ =>
    if r = .portReset ∧ (s.port p).resetPending = false then takeReset p s else dropBusy p (some r.kind) s

/-- A frame that fails a check (R186). Its record keeps the kind byte as received, where one was, of a known kind or
not (log 36). -/
def refuseFrame (p : Port) (kind : Option Byte) (st : Status) (s : State) : State :=
  match (s.port p).request with
  | .idle => s.modPort p (PortState.placeReply ⟨kind, st, []⟩ none s.now)
  | _ => dropBusy p none s

/-- A REQUEST frame at its transaction's end, by its verdict. -/
def takeVerdict (p : Port) (v : FrameVerdict) (s : State) : State :=
  match v with
  | .good r => takeRequest p r s
  | .badFrame kind => refuseFrame p kind .badFrame s
  | .unknownKind kind => refuseFrame p (some kind) .unknownKind (seen p s)

/-! ### After a claim check (R70) -/

/-- A request of the Report Processor raised: placed at once, or put on the store order list (R116). -/
def raiseStoreOrder (r : StoreReq) (s : State) : State :=
  if s.report.storeOrders.isEmpty && s.arbiter.waiting.report.isNone then place .report r s
  else { s with report := { s.report with storeOrders := s.report.storeOrders ++ [r] } }

/-- The owning block's reply, at which the request completes and the claim it used restarts (R67). -/
def finishCheck (p : Port) (c : ClaimIx) (st : Status) (body : List Byte) (s : State) : State :=
  restartClaim p c (deliver p st body s)

/-- UNIT_ADMIT that passed its checks (R122). -/
def admitUnit (u : UnitIx) (old : UnitRecord) (z : Zone) (role : Role) (s : State) : State :=
  let s := s.setUnit u (some { old with state := .active z role })
  let s := queueReply (.joinAck old.address (some z)) s
  forEach (allZones.filter fun x => x = z || old.zone = some x) recompute s

def carryUnitAdmit (p : Port) (index zone role : Byte) (c : ClaimIx) (s : State) : State :=
  match unit? index, zone? zone, role? role with
  | some u, some z, some k =>
    match s.report.registry[u] with
    | some old =>
      let s := admitUnit u old z k s
      finishCheck p c .ok (unitRecordBody u s) s
    | none => finishCheck p c .notFound [] s
  | _, _, _ => finishCheck p c .range [] s

/-- UNIT_REMOVE that passed its checks, steps 1 to 4 (R123). -/
def removeUnit (p : Port) (u : UnitIx) (old : UnitRecord) (s : State) : State :=
  let cleared := allZones.filter fun z => s.zones[z].primaryUnit = some u
  let s := s.setUnit u none
  let s := forEach cleared (fun z s => s.modZone z fun r => { r with primaryUnit := none }) s
  let s := forEach (allZones.filter fun z => z ∈ cleared || old.zone = some z) recompute s
  raiseStoreOrder (.ownerRemoval u p) s

def carryUnitRemove (p : Port) (index : Byte) (c : ClaimIx) (s : State) : State :=
  match unit? index with
  | some u =>
    match s.report.registry[u] with
    | some old => removeUnit p u old s
    | none => finishCheck p c .notFound [] s
  | none => finishCheck p c .range [] s

/-- min_pos and max_pos of VALVE_ASSIGN are in range and in order (R136). -/
def posRange (minPos maxPos : Byte) : Bool :=
  decide (maxPos.toNat ≤ 100) && decide (minPos.toNat < maxPos.toNat)

/-- VALVE_ASSIGN after its claim check (R136, R137). -/
def carryValveAssign (p : Port) (channel zone : Byte) (fullStroke : Half) (minPos maxPos : Byte) (c : ClaimIx)
    (s : State) : State :=
  match channel? channel, finOrNone? 16 zone with
  | some ch, some z =>
    if fullStroke.toNat < 10 ∨ 300 < fullStroke.toNat ∨ posRange minPos maxPos = false then
      finishCheck p c .range [] s
    else if (s.channel ch).state = .moving then finishCheck p c .state [] s
    else
      let s := assign ch z fullStroke.toNat minPos.toNat maxPos.toNat s
      finishCheck p c .ok (channelRecordBody ch s) s
  | _, _ => finishCheck p c .range [] s

/-- The entries a channel that is not calibrated may be given (R141). -/
def Entry.blindSafe : Entry → Bool
  | .seekClosed => true
  | .mark .. => true
  | _ => false

/-- VALVE_SERVICE after its claim check (R141), the claim found again first (R70). The reply gives the state
before the take-up that follows. -/
def carryValveService (p : Port) (channel : Byte) (entries : List ServiceEntry) (c : ClaimIx) (s : State) :
    State :=
  match channel? channel with
  | some ch =>
    if claimOfChannel ch s ≠ c then finishCheck p c .noClaim [] s
    else if entries.length < 1 ∨ 6 < entries.length then finishCheck p c .range [] s
    else
      match all? (entries.map (serviceEntry? p)) with
      | none => finishCheck p c .range [] s
      | some l =>
        let r := s.channel ch
        if r.state = .fault ∨ (r.calibrated = false ∧ l.all Entry.blindSafe = false) then
          finishCheck p c .state [] s
        else if Config.commandMax < r.queue.length + l.length then finishCheck p c .queueFull [] s
        else
          finishCheck p c .ok
            [encFin ch, r.state.code, enc8 l.length, enc8 (r.queue.length + l.length)]
            (appendEntries ch l s)
  | none => finishCheck p c .range [] s

/-- A claim check has passed: the owning block carries out the request at once (R70). Only these four
requests are ever checked so. -/
def carryChecked (p : Port) (r : HostReq) (c : ClaimIx) (s : State) : State :=
  match r with
  | .unitAdmit index zone role => carryUnitAdmit p index zone role c s
  | .unitRemove index => carryUnitRemove p index c s
  | .valveAssign channel zone fullStroke minPos maxPos => carryValveAssign p channel zone fullStroke minPos maxPos c s
  | .valveService channel entries => carryValveService p channel entries c s
  | _ => s

end Sys2Proof.Machine
end

