-- ==== Sys2Proof/Machine/HostRequests.lean ====
section
/-! DEFINITION. The 29 host requests: a good frame of each kind at the end of its transaction (R185, R186).
What each kind does then is its owner's: RequestOps, StoreOps and CompletionOps. -/

namespace Sys2Proof.Machine

/-- IDENTIFY (R195): answered when it is taken. -/
def execIdentify (p : Port) (s : State) : Host.Outcome State Fault Refusal :=
  .next (takeRequest p .identify s)

/-- READ_ZONE (R3): answered when it is taken. -/
def execReadZone (p : Port) (zone : Byte) (s : State) : Host.Outcome State Fault Refusal :=
  .next (takeRequest p (.readZone zone) s)

/-- SET_ZONE (R5): carried out in the Program Store when the arbiter grants it. -/
def execSetZone (p : Port) (zone mode : Byte) (target : Half) (primary : Byte) (s : State) :
    Host.Outcome State Fault Refusal :=
  .next (takeRequest p (.setZone zone mode target primary) s)

/-- SCHEDULE_INSERT (R38): carried out in the Program Store when the arbiter grants it. -/
def execScheduleInsert (p : Port) (zone : Byte) (minute : Half) (kind : Byte) (target : Half) (s : State) :
    Host.Outcome State Fault Refusal :=
  .next (takeRequest p (.scheduleInsert zone minute kind target) s)

/-- SCHEDULE_DELETE (R39): carried out in the Program Store when the arbiter grants it. -/
def execScheduleDelete (p : Port) (zone : Byte) (minute : Half) (s : State) :
    Host.Outcome State Fault Refusal :=
  .next (takeRequest p (.scheduleDelete zone minute) s)

/-- SCHEDULE_LOAD (R40, R41): carried out in the Program Store when the arbiter grants it. -/
def execScheduleLoad (p : Port) (zone : Byte) (points : List (BitVec 24)) (s : State) :
    Host.Outcome State Fault Refusal :=
  .next (takeRequest p (.scheduleLoad zone points) s)

/-- SCHEDULE_READ (R42): carried out in the Program Store when the arbiter grants it. -/
def execScheduleRead (p : Port) (zone start : Byte) (s : State) : Host.Outcome State Fault Refusal :=
  .next (takeRequest p (.scheduleRead zone start) s)

/-- CLAIM (R64): carried out in the Program Store when the arbiter grants it. -/
def execClaim (p : Port) (target : Byte) (s : State) : Host.Outcome State Fault Refusal :=
  .next (takeRequest p (.claim target) s)

/-- RELEASE (R65): carried out in the Program Store when the arbiter grants it. -/
def execRelease (p : Port) (target : Byte) (s : State) : Host.Outcome State Fault Refusal :=
  .next (takeRequest p (.release target) s)

/-- PUSH_HOLD (R45, R46): carried out in the Program Store when the arbiter grants it. -/
def execPushHold (p : Port) (zone : Byte) (target : Half) (locked holdEnd : Byte) (minutes : Half) (s : State) :
    Host.Outcome State Fault Refusal :=
  .next (takeRequest p (.pushHold zone target locked holdEnd minutes) s)

/-- CANCEL_HOLD (R49): carried out in the Program Store when the arbiter grants it. -/
def execCancelHold (p : Port) (zone : Byte) (s : State) : Host.Outcome State Fault Refusal :=
  .next (takeRequest p (.cancelHold zone) s)

/-- CANCEL_BOOST (R54): carried out in the Program Store when the arbiter grants it. -/
def execCancelBoost (p : Port) (zone : Byte) (s : State) : Host.Outcome State Fault Refusal :=
  .next (takeRequest p (.cancelBoost zone) s)

/-- SET_TIME (R27, R28): carried out in the Program Store when the arbiter grants it. -/
def execSetTime (p : Port) (minute : Half) (seconds : Byte) (s : State) : Host.Outcome State Fault Refusal :=
  .next (takeRequest p (.setTime minute seconds) s)

/-- RELEASE_TIME (R29): carried out in the Program Store when the arbiter grants it. -/
def execReleaseTime (p : Port) (s : State) : Host.Outcome State Fault Refusal :=
  .next (takeRequest p .releaseTime s)

/-- READ_TIME (R30): answered when it is taken. -/
def execReadTime (p : Port) (s : State) : Host.Outcome State Fault Refusal :=
  .next (takeRequest p .readTime s)

/-- CONFIGURE (R196, R197): carried out in the Program Store when the arbiter grants it. -/
def execConfigure (p : Port) (items : List ConfigItem) (s : State) : Host.Outcome State Fault Refusal :=
  .next (takeRequest p (.configure items) s)

/-- READ_CONFIG (R198): answered when it is taken. -/
def execReadConfig (p : Port) (s : State) : Host.Outcome State Fault Refusal :=
  .next (takeRequest p .readConfig s)

/-- UNIT_ADMIT (R122): carried out by its owner after a claim check. -/
def execUnitAdmit (p : Port) (index zone role : Byte) (s : State) : Host.Outcome State Fault Refusal :=
  .next (takeRequest p (.unitAdmit index zone role) s)

/-- UNIT_REMOVE (R123): carried out by its owner after a claim check. -/
def execUnitRemove (p : Port) (index : Byte) (s : State) : Host.Outcome State Fault Refusal :=
  .next (takeRequest p (.unitRemove index) s)

/-- UNIT_READ (R124): answered when it is taken. -/
def execUnitRead (p : Port) (index : Byte) (s : State) : Host.Outcome State Fault Refusal :=
  .next (takeRequest p (.unitRead index) s)

/-- VALVE_ASSIGN (R136, R137): carried out by its owner after a claim check. -/
def execValveAssign (p : Port) (channel zone : Byte) (fullStroke : Half) (minPos maxPos : Byte) (s : State) :
    Host.Outcome State Fault Refusal :=
  .next (takeRequest p (.valveAssign channel zone fullStroke minPos maxPos) s)

/-- VALVE_SERVICE (R141): carried out by its owner after a claim check. -/
def execValveService (p : Port) (channel : Byte) (entries : List ServiceEntry) (s : State) :
    Host.Outcome State Fault Refusal :=
  .next (takeRequest p (.valveService channel entries) s)

/-- VALVE_CLEAR (R155): answered when it is taken. -/
def execValveClear (p : Port) (channel : Byte) (s : State) : Host.Outcome State Fault Refusal :=
  .next (takeRequest p (.valveClear channel) s)

/-- VALVE_READ (R156): answered when it is taken. -/
def execValveRead (p : Port) (channel : Byte) (s : State) : Host.Outcome State Fault Refusal :=
  .next (takeRequest p (.valveRead channel) s)

/-- FIRING_READ (R181): answered when it is taken. -/
def execFiringRead (p : Port) (s : State) : Host.Outcome State Fault Refusal :=
  .next (takeRequest p .firingRead s)

/-- CLEAR_LOCKOUT (R173): answered when it is taken. -/
def execClearLockout (p : Port) (s : State) : Host.Outcome State Fault Refusal :=
  .next (takeRequest p .clearLockout s)

/-- NOTICE_MASK (R192): answered when it is taken. -/
def execNoticeMask (p : Port) (entries : List MaskEntry) (purge : Byte) (s : State) :
    Host.Outcome State Fault Refusal :=
  .next (takeRequest p (.noticeMask entries purge) s)

/-- FAULT_READ (R194): answered when it is taken. -/
def execFaultRead (p : Port) (clear : Byte) (s : State) : Host.Outcome State Fault Refusal :=
  .next (takeRequest p (.faultRead clear) s)

/-- PORT_RESET (R76, R199): taken in any request state; its store step is placed, or waits for the request in flight. -/
def execPortReset (p : Port) (s : State) : Host.Outcome State Fault Refusal :=
  .next (takeRequest p .portReset s)

end Sys2Proof.Machine
end

