-- ==== Sys2Proof/Machine/ReportEvents.lean ====
section
/-! DEFINITION. The Report Processor's processing of the head record of the receive queue (R115, R120 to R127,
R132, R133). A row acts when the head is a record of its kind. -/

namespace Sys2Proof.Machine

/-- The head record. -/
def State.headRecord (s : State) : Option FrameRecord := s.report.queue.head?

/-- The ACTIVE unit at a source address (R125). -/
def activeUnit (src : Byte) (s : State) : Option (UnitIx × UnitRecord × Zone) :=
  match unitAt src s with
  | some u =>
    match s.report.registry[u] with
    | some r => r.zone.map fun z => (u, r, z)
    | none => none
  | none => none

/-! ### TEMP (R126, R127) -/

/-- An implausible temperature (R126). -/
def implausible (u : UnitIx) (r : UnitRecord) (z : Zone) (temp : Int) (s : State) : State :=
  let n := min 3 (r.implausibleCount + 1)
  let r' := { r with implausibleCount := n, faulty := r.faulty || n == 3 }
  let s := raise .reportImplausible (.unit u) (encTemp temp ++ [enc8 n, encFlag r'.faulty]) (s.setUnit u (some r'))
  if r'.faulty && !r.faulty then recompute z s else s

/-- A plausible temperature (R127). -/
def plausible (u : UnitIx) (r : UnitRecord) (z : Zone) (temp : Int) (humidity : Option Byte) (arrival : Nat)
    (s : State) : State :=
  let r' := { r with
    lastTemp := some temp
    lastHumidity := humidity.filter fun h => decide (h.toNat ≤ 100)
    lastReport := some arrival
    freshness := .fresh
    implausibleCount := 0
    faulty := false }
  recompute z (s.setUnit u (some r'))

/-- A temperature judged (R125 to R127). -/
def judgeTemp (src : Byte) (temp : Int) (humidity : Option Byte) (arrival : Nat) (s : State) : State :=
  match activeUnit src s with
  | some (u, r, z) =>
    if temp < s.taken.plausLow ∨ s.taken.plausHigh < temp then implausible u r z temp s
    else plausible u r z temp humidity arrival s
  | none => s

/-- TEMP_RECORD (R127). -/
def execTempRecord (s : State) : Host.Outcome State Fault Refusal :=
  .next
    (match s.headRecord with
    | some ⟨src, .temp t h, arrival⟩ => removeHead (judgeTemp src t h arrival s)
    | _ => s)

/-! ### JOIN (R120, R121) -/

/-- The lowest-indexed FREE record. -/
def State.freeUnit (s : State) : Option UnitIx := allUnits.find? fun u => (s.report.registry[u]).isNone

/-- The creation values of R119. -/
def UnitRecord.created (address unitType : Byte) (serial : BitVec 32) : UnitRecord where
  address := address
  serial := serial
  unitType := unitType
  state := .pending
  lastTemp := none
  lastHumidity := none
  lastReport := none
  freshness := .lost
  implausibleCount := 0
  faulty := false

/-- A JOIN from an address of no record (R120). -/
def joinNew (src unitType : Byte) (serial : BitVec 32) (s : State) : State :=
  match s.freeUnit with
  | some u =>
    let s := s.setUnit u (some (.created src unitType serial))
    queueReply (.joinAck src none) (raise .unitJoined (.unit u) ([src] ++ be32 serial ++ [unitType]) s)
  | none => raise .registryFull (.address src) (be32 serial ++ [unitType]) s

/-- A JOIN from the address of a record (R121). -/
def joinKnown (u : UnitIx) (r : UnitRecord) (src : Byte) (serial : BitVec 32) (s : State) : State :=
  if r.serial = serial then queueReply (.joinAck src r.zone) s
  else raise .addressConflict (.unit u) ([r.address] ++ be32 r.serial ++ be32 serial) s

def judgeJoin (src unitType : Byte) (serial : BitVec 32) (s : State) : State :=
  match unitAt src s with
  | some u =>
    match s.report.registry[u] with
    | some r => joinKnown u r src serial s
    | none => s
  | none => joinNew src unitType serial s

/-- JOIN_RECORD (R120, R121). -/
def execJoinRecord (s : State) : Host.Outcome State Fault Refusal :=
  .next
    (match s.headRecord with
    | some ⟨src, .join unitType serial, _⟩ => removeHead (judgeJoin src unitType serial s)
    | _ => s)

/-! ### BOOST and BOOST_CANCEL (R132, R133) -/

/-- The head's request is raised; it stays at the head until its outcome is handed back (R115). -/
def raiseForHead (r : StoreReq) (s : State) : State :=
  raiseStoreOrder r { s with report := { s.report with headRaised := true } }

/-- The ACTIVE PANEL at a source address. -/
def activePanel (src : Byte) (s : State) : Option (UnitIx × Zone) :=
  match activeUnit src s with
  | some (u, r, z) => if r.isPanel then some (u, z) else none
  | none => none

def judgeBoost (src delta : Byte) (duration : Half) (s : State) : State :=
  match activePanel src s with
  | some (u, z) => raiseForHead (.boost u z delta duration) s
  | none => removeHead (queueReply (.boostReply src .unknownUnit) s)

/-- BOOST_RECORD (R132): once for the head. -/
def execBoostRecord (s : State) : Host.Outcome State Fault Refusal :=
  .next
    (match s.headRecord, s.report.headRaised with
    | some ⟨src, .boost delta duration, _⟩, false => judgeBoost src delta duration s
    | _, _ => s)

def judgeBoostCancel (src : Byte) (s : State) : State :=
  match activePanel src s with
  | some (u, _) => raiseForHead (.boostCancel u) s
  | none => removeHead s

/-- BOOST_CANCEL_RECORD (R133): once for the head. -/
def execBoostCancelRecord (s : State) : Host.Outcome State Fault Refusal :=
  .next
    (match s.headRecord, s.report.headRaised with
    | some ⟨src, .boostCancel, _⟩, false => judgeBoostCancel src s
    | _, _ => s)

end Sys2Proof.Machine
end

