-- ==== Sys2Proof/Machine/CompletionOps.lean ====
section
/-! DEFINITION. The completion of a Program Store request: its reply or hand-back (R73), the take-up of new
parameters (R197), the port's part of a port reset (R199), and the next grant (R72). -/

namespace Sys2Proof.Machine

/-! ### CONFIGURE: each block takes up what changed (R197) -/

/-- R7 and R16: a new loop_period restarts the loop timer, a new served_limit makes a recomputation due. -/
def demandTakeUp (old : Params) (s : State) : State :=
  let s :=
    if old.loopPeriod = s.taken.loopPeriod then s
    else { s with demand := { s.demand with loopStart := s.clock.ticks } }
  if old.servedLimit = s.taken.servedLimit then s
  else { s with demand := { s.demand with servedRecompute := true } }

/-- R154: open_confirmed judged for every channel, then flow_ready written for every zone. -/
def valveTakeUp (old : Params) (s : State) : State :=
  if old.openThreshold = s.taken.openThreshold then s
  else forEach allZones writeFlowReady (forEach allChannels judgeOpenOnly s)

/-- R164, R169. -/
def firingTakeUp (old : Params) (s : State) : State :=
  let s := if old.bypassEnable = s.taken.bypassEnable then s else testPermitted s.firing.picture.served s
  if old.minOff = s.taken.minOff then s else judgeMinOff s

/-- R118. -/
def reportTakeUp (old : Params) (s : State) : State :=
  if old.holdoffLevel = s.taken.holdoffLevel ∧ old.resumeLevel = s.taken.resumeLevel then s else judgeHoldOff s

/-- R79, R85. -/
def contactTakeUp (old : Params) (s : State) : State := forEach allZones (applySettings old.contacts) s

/-- The written parameters reach the blocks. The Room Bus Controller, the Burner Link and the rest of the
parameters are used from the next event that reads them. -/
def takeUpConfig (s : State) : State :=
  let old := s.taken
  let s := { s with taken := s.written }
  contactTakeUp old (reportTakeUp old (firingTakeUp old (valveTakeUp old (demandTakeUp old s))))

/-! ### Hand-backs -/

/-- The port's own part of its reset, and the reset's reply (R199). -/
def PortState.localReset (p : PortState) : PortState :=
  { p with
    notices := []
    reply := some ⟨some HostReq.portReset.kind, .ok, []⟩
    request := .replyReady
    slot := none
    fault := none
    noticesLost := false
    mask := Vector.replicate 22 true
    discard := false
    resetPending := false
    fetch := p.fetch.map fun f => { f with gone := true } }

/-- The outcome of a boost request handed back (R132). -/
def boostOutcome (reason : Reason) (s : State) : State :=
  match s.report.queue.head? with
  | some r => removeHead (queueReply (.boostReply r.src reason) s)
  | none => s

/-- The reply of a port's own Program Store request leaves; the claim it used restarts (R67), and a taken
CONFIGURE reaches the blocks. -/
def hostDone (p : Port) (r : HostReq) (st : Status) (body : List Byte) (used : Option ClaimIx) (s : State) : State :=
  let s := deliver p st body s
  let s :=
    match used with
    | some c => restartClaim p c s
    | none => s
  match r with
  | .configure _ => if st = .ok then takeUpConfig s else s
  | _ => s

/-- What leaves the Program Store at a completion (R73). -/
def handBack (c : Carried) (s : State) : State :=
  match c.req, c.result with
  | .host p r, .reply st body used => hostDone p r st body used s
  | .check p r claim, .checked true => carryChecked p r claim s
  | .check p _ _, .checked false => deliver p .noClaim [] s
  | .resetStep p, _ => s.modPort p PortState.localReset
  | .boost .., .boosted reason => boostOutcome reason s
  | .boostCancel _, _ => removeHead s
  | .ownerRemoval _ p, _ => finishCheck p configClaim .ok [] s
  | _, _ => s

/-- A completion (R72, R73): the hand-back, then the arbiter is idle and grants the next waiting request
(log 5). -/
def complete (c : Carried) (s : State) : State :=
  let s := handBack c s
  grantNext { s with arbiter := { s.arbiter with carrying := none } }

/-- STORE_REQUEST_COMPLETE when a request is being carried out. -/
def completeStore (s : State) : State :=
  match s.arbiter.carrying with
  | some c => complete c s
  | none => s

end Sys2Proof.Machine
end

