-- ==== Sys2Proof/Machine/StoreEvents.lean ====
section
/-! DEFINITION. The events of the Program Store and the Demand Unit that follow a completion, and the expiry of
an override count. -/

namespace Sys2Proof.Machine

/-- STORE_REQUEST_COMPLETE (R72, R73). -/
def execStoreRequestComplete (s : State) : Host.Outcome State Fault Refusal := .next (completeStore s)

/-- The recomputation of served after a change of served_limit: steps 5 and 6 (R16). -/
def recomputeServed (s : State) : State :=
  finishEvaluation 0 id { s with demand := { s.demand with servedRecompute := false } }

/-- SERVED_RECOMPUTATION (R16): when one is due. -/
def execServedRecomputation (s : State) : Host.Outcome State Fault Refusal :=
  .next (if s.demand.servedRecompute then recomputeServed s else s)

/-- A count of the zone's stack reaches 0 or below when it is lowered by m (R47). -/
def Stack.expires (m : Nat) (k : Stack) : Bool :=
  k.hold.any (fun h => (h.lower m).isNone) || k.boost.any fun b => (b.lower m).isNone

/-- The next second event is a minute event whose evaluation is granted at once and expires a count. -/
def State.expiresAtMinute (s : State) (z : Zone) : Bool :=
  s.arbiter.carrying.isNone && s.arbiter.waiting.clock.isNone && decide (59 ≤ s.clock.seconds) &&
    s.store.overrides[z].expires 1

/-- The state in which the next grant after the present completion is chosen. -/
def afterHandBack (c : Carried) (s : State) : State :=
  let s := handBack c s
  { s with arbiter := { s.arbiter with carrying := none } }

/-- The completion of the request being carried out grants a minute evaluation that expires a count. -/
def State.expiresAtCompletion (s : State) (z : Zone) : Bool :=
  match s.arbiter.carrying with
  | some c =>
    let s := afterHandBack c s
    match s.arbiter.next with
    | some (_, .minuteEval m) => s.store.overrides[z].expires m
    | _ => false
  | none => false

/-- OVERRIDE_COUNT_EXPIRY (R47): the event in which the count expires, taken whole (log 3). -/
def execOverrideCountExpiry (zone : Zone) (s : State) : Host.Outcome State Fault Refusal :=
  .next
    (if s.expiresAtMinute zone then secondAt s
    else if s.expiresAtCompletion zone then completeStore s
    else s)

end Sys2Proof.Machine
end

