-- ==== Sys2Proof/Machine/Transactions.lean ====
section
/-! DEFINITION. The device reset and the transactions of a host port (R77, R184 to R188). -/

namespace Sys2Proof.Machine

/-- DEVICE_RESET (R2, R77, R183 and the reset rules of every chapter): every field as after a device reset;
the commands waiting outside and the model's count of free choices stay (log 19). -/
def execDeviceReset (s : State) : Host.Outcome State Fault Refusal :=
  .next { State.reset with
    pending := s.pending
    demand := { DemandUnit.reset with choices := s.demand.choices } }

/-- VOID_TRANSACTION (R184): a BAD_FRAME refusal with kind and subject none; no reply. -/
def execVoidTransaction (v : VoidTransaction) (s : State) : Host.Outcome State Fault Refusal :=
  .next
    (match judgeTransaction [v.first] with
    | .void => s.modPort v.port (PortState.recordRefusal none .badFrame none s.now)
    | _ => s)

/-- BAD_FRAME (R185, R186): the bytes of a REQUEST transaction, judged at its end. -/
def execBadFrame (p : Port) (bytes : List Byte) (s : State) : Host.Outcome State Fault Refusal :=
  .next
    (match judgeTransaction bytes with
    | .request v => takeVerdict p v s
    | _ => s)

/-- The item a FETCH chooses (R188). -/
def PortState.chosen (p : PortState) : FetchItem :=
  match p.reply, p.notices with
  | some r, _ => .reply r
  | none, n :: _ => .notice n
  | none, [] => .nothing

/-- The notices in the queue, not counting the one chosen (R188). -/
def PortState.waitingCount (p : PortState) : Nat :=
  match p.chosen with
  | .notice _ => p.notices.length - 1
  | _ => p.notices.length

/-- The choice: item and header, and notices_lost cleared. A port carries one transaction at a time (log 20). -/
def PortState.startFetch (p : PortState) : PortState :=
  match p.fetch with
  | some _ => p
  | none => { p with fetch := some ⟨p.chosen, p.noticesLost, p.waitingCount, false⟩, noticesLost := false }

/-- FETCH (R188). -/
def execFetch (p : Port) (s : State) : Host.Outcome State Fault Refusal :=
  .next (s.modPort p PortState.startFetch)

/-- A chosen item leaves its slot or queue. A chosen reply stands in its slot, in REPLY_READY, until its FETCH
ends, since no request comes in during the port's own transaction (log 20). -/
def PortState.takeItem (item : FetchItem) (p : PortState) : PortState :=
  match item with
  | .reply _ => if p.request = .replyReady then { p with reply := none, request := .idle, slot := none } else p
  | .notice _ => { p with notices := p.notices.tail }
  | .nothing => p

/-- The end of a FETCH transaction (R188), and of one whose item a port reset took away (R199). -/
def PortState.endFetch (headerWhole : Bool) (p : PortState) : PortState :=
  match p.fetch with
  | none => p
  | some f =>
    let p := { p with fetch := none }
    if f.gone then p
    else if headerWhole then p.takeItem f.item
    else { p with noticesLost := p.noticesLost || f.lost }

/-- FETCH_TRANSACTION_END (R188, R199). -/
def execFetchTransactionEnd (p : Port) (headerWhole : Bool) (s : State) : Host.Outcome State Fault Refusal :=
  .next (s.modPort p (PortState.endFetch headerWhole))

end Sys2Proof.Machine
end

