-- ==== Sys2Proof/Machine/ValveEvents.lean ====
section
/-! DEFINITION. The ends of what a valve channel is doing (R142, R146 to R149). -/

namespace Sys2Proof.Machine

/-- The movement of a channel with its entry and the tick it started at. -/
def State.movementOf (s : State) (c : Channel) : Option (Entry × Nat × Movement) :=
  match (s.channel c).inProgress with
  | some ⟨e, t, _, some m⟩ => some (e, t, m)
  | _ => none

/-- MOVEMENT_COMPLETION (R146): the duration of a MOVE_TO ends. -/
def execMovementCompletion (channel : Channel) (s : State) : Host.Outcome State Fault Refusal :=
  .next
    (match s.movementOf channel with
    | some (.moveTo _ _, t, m) => endMovement channel m.target (runTo (m.moveEnd t) s)
    | _ => s)

/-- A SEEK_CLOSED that ran its whole time (R147): NO_END_STOP comes first among the notices of the event (log 35). -/
def seekTimedOut (c : Channel) (s : State) : State :=
  endMovement c 0 (raise .noEndStop (.channel c) [encFinOpt (s.channel c).zone] s)

/-- SEEK_CLOSED_TIMEOUT (R147). -/
def execSeekClosedTimeout (channel : Channel) (s : State) : Host.Outcome State Fault Refusal :=
  .next
    (match s.movementOf channel with
    | some (.seekClosed, t, m) => seekTimedOut channel (runTo (m.seekEnd t) s)
    | _ => s)

/-- A DWELL is over: the entry is removed and take-up goes on (R142). -/
def dwellOver (c : Channel) (s : State) : State :=
  takeUp c (s.modChannel c fun r => { r with queue := r.queue.tail, inProgress := none, state := r.restState })

/-- DWELL_END (R142). -/
def execDwellEnd (channel : Channel) (s : State) : Host.Outcome State Fault Refusal :=
  .next
    (match (s.channel channel).inProgress with
    | some ⟨.dwell d, t, _, none⟩ => dwellOver channel (runTo (t + d * Config.hz) s)
    | _ => s)

/-- The current sense is disregarded for the first 500 ms of a movement (R148). -/
def State.blanked (s : State) (startTick : Nat) : Bool := decide (s.clock.ticks < afterMs startTick 500)

/-- A stall during a MOVE_TO, judged by its direction and the estimate (R148). -/
def stallOfMove (c : Channel) (m : Movement) (estimate : Nat) (s : State) : State :=
  if m.opening then if 85 ≤ estimate then endMovement c 100 s else jam c m estimate s
  else if estimate ≤ 15 then endMovement c 0 s
  else jam c m estimate s

/-- A stall in the slot of a channel (R147, R148). -/
def stallOf (c : Channel) (s : State) : State :=
  match s.movementOf c with
  | some (e, t, m) =>
    if s.blanked t then s
    else
      match e with
      | .seekClosed => endMovement c 0 s
      | _ => stallOfMove c m ((m.estimate (s.clock.ticks - t)).getD m.target) s
  | none => s

/-- STALL (R148): the slot's current rises above the threshold while the slot drives a motor. -/
def execStall (slot : Slot) (s : State) : Host.Outcome State Fault Refusal :=
  .next
    (match s.valves.slots[slot] with
    | some c => stallOf c s
    | none => s)

end Sys2Proof.Machine
end

