-- ==== Sys2Proof/Machine/Dispatch.lean ====
section
/-! DEFINITION. One arm per command, in the order of opcode_table.json. -/

namespace Sys2Proof.Machine

def exec (i : Instr) (s : State) : Host.Outcome State Fault Refusal :=
  match i with
  | .deviceReset => Sys2Proof.Machine.execDeviceReset s
  | .voidTransaction v => Sys2Proof.Machine.execVoidTransaction v s
  | .badFrame p bytes => Sys2Proof.Machine.execBadFrame p bytes s
  | .fetch p => Sys2Proof.Machine.execFetch p s
  | .fetchTransactionEnd p headerWhole => Sys2Proof.Machine.execFetchTransactionEnd p headerWhole s
  | .identify p => Sys2Proof.Machine.execIdentify p s
  | .readZone p zone => Sys2Proof.Machine.execReadZone p zone s
  | .setZone p zone mode target primary => Sys2Proof.Machine.execSetZone p zone mode target primary s
  | .scheduleInsert p zone minute kind target => Sys2Proof.Machine.execScheduleInsert p zone minute kind target s
  | .scheduleDelete p zone minute => Sys2Proof.Machine.execScheduleDelete p zone minute s
  | .scheduleLoad p zone points => Sys2Proof.Machine.execScheduleLoad p zone points s
  | .scheduleRead p zone start => Sys2Proof.Machine.execScheduleRead p zone start s
  | .claim p target => Sys2Proof.Machine.execClaim p target s
  | .release p target => Sys2Proof.Machine.execRelease p target s
  | .pushHold p zone target locked holdEnd minutes => Sys2Proof.Machine.execPushHold p zone target locked holdEnd minutes s
  | .cancelHold p zone => Sys2Proof.Machine.execCancelHold p zone s
  | .cancelBoost p zone => Sys2Proof.Machine.execCancelBoost p zone s
  | .setTime p minute seconds => Sys2Proof.Machine.execSetTime p minute seconds s
  | .releaseTime p => Sys2Proof.Machine.execReleaseTime p s
  | .readTime p => Sys2Proof.Machine.execReadTime p s
  | .configure p items => Sys2Proof.Machine.execConfigure p items s
  | .readConfig p => Sys2Proof.Machine.execReadConfig p s
  | .unitAdmit p index zone role => Sys2Proof.Machine.execUnitAdmit p index zone role s
  | .unitRemove p index => Sys2Proof.Machine.execUnitRemove p index s
  | .unitRead p index => Sys2Proof.Machine.execUnitRead p index s
  | .valveAssign p channel zone fullStroke minPos maxPos => Sys2Proof.Machine.execValveAssign p channel zone fullStroke minPos maxPos s
  | .valveService p channel entries => Sys2Proof.Machine.execValveService p channel entries s
  | .valveClear p channel => Sys2Proof.Machine.execValveClear p channel s
  | .valveRead p channel => Sys2Proof.Machine.execValveRead p channel s
  | .firingRead p => Sys2Proof.Machine.execFiringRead p s
  | .clearLockout p => Sys2Proof.Machine.execClearLockout p s
  | .noticeMask p entries purge => Sys2Proof.Machine.execNoticeMask p entries purge s
  | .faultRead p clear => Sys2Proof.Machine.execFaultRead p clear s
  | .portReset p => Sys2Proof.Machine.execPortReset p s
  | .storeRequestComplete => Sys2Proof.Machine.execStoreRequestComplete s
  | .servedRecomputation => Sys2Proof.Machine.execServedRecomputation s
  | .secondEvent => Sys2Proof.Machine.execSecondEvent s
  | .minuteEvent => Sys2Proof.Machine.execMinuteEvent s
  | .claimLapse claim => Sys2Proof.Machine.execClaimLapse claim s
  | .overrideCountExpiry zone => Sys2Proof.Machine.execOverrideCountExpiry zone s
  | .loopEvent => Sys2Proof.Machine.execLoopEvent s
  | .zoneEvent zone => Sys2Proof.Machine.execZoneEvent zone s
  | .sampleEvent levels => Sys2Proof.Machine.execSampleEvent levels s
  | .windowDelayExpiry input levels => Sys2Proof.Machine.execWindowDelayExpiry input levels s
  | .busFree => Sys2Proof.Machine.execBusFree s
  | .destReservation dest => Sys2Proof.Machine.execDestReservation dest s
  | .frameReceived crc => Sys2Proof.Machine.execFrameReceived crc s
  | .shortFrame repeatedStart => Sys2Proof.Machine.execShortFrame repeatedStart s
  | .busError start carried => Sys2Proof.Machine.execBusError start carried s
  | .stuckBus held => Sys2Proof.Machine.execStuckBus held s
  | .busWiresHigh => Sys2Proof.Machine.execBusWiresHigh s
  | .recoveryInterrupted => Sys2Proof.Machine.execRecoveryInterrupted s
  | .sync readbackGood => Sys2Proof.Machine.execSync readbackGood s
  | .syncComplete => Sys2Proof.Machine.execSyncComplete s
  | .attemptStart => Sys2Proof.Machine.execAttemptStart s
  | .deferralTimeout => Sys2Proof.Machine.execDeferralTimeout s
  | .arbitrationLoss carried => Sys2Proof.Machine.execArbitrationLoss carried s
  | .attemptSuccess => Sys2Proof.Machine.execAttemptSuccess s
  | .attemptFailure => Sys2Proof.Machine.execAttemptFailure s
  | .backoffEnd source => Sys2Proof.Machine.execBackoffEnd source s
  | .tempRecord => Sys2Proof.Machine.execTempRecord s
  | .joinRecord => Sys2Proof.Machine.execJoinRecord s
  | .boostRecord => Sys2Proof.Machine.execBoostRecord s
  | .boostCancelRecord => Sys2Proof.Machine.execBoostCancelRecord s
  | .unitFreshnessAging index => Sys2Proof.Machine.execUnitFreshnessAging index s
  | .movementCompletion channel => Sys2Proof.Machine.execMovementCompletion channel s
  | .seekClosedTimeout channel => Sys2Proof.Machine.execSeekClosedTimeout channel s
  | .dwellEnd channel => Sys2Proof.Machine.execDwellEnd channel s
  | .stall slot => Sys2Proof.Machine.execStall slot s
  | .exchange => Sys2Proof.Machine.execExchange s
  | .byteGapTimeout => Sys2Proof.Machine.execByteGapTimeout s
  | .status frame => Sys2Proof.Machine.execStatus frame s
  | .miss => Sys2Proof.Machine.execMiss s
  | .runoutTimerExpiry => Sys2Proof.Machine.execRunoutTimerExpiry s
  | .minOffElapsed => Sys2Proof.Machine.execMinOffElapsed s
  | .lockoutPumpTimerExpiry => Sys2Proof.Machine.execLockoutPumpTimerExpiry s
  | .startSeen => Sys2Proof.Machine.execStartSeen s
  | .stopSeen => Sys2Proof.Machine.execStopSeen s
  | .receivedByte b => Sys2Proof.Machine.execReceivedByte b s
  | .demandSent => Sys2Proof.Machine.execDemandSent s
  | .frameAbandoned byte => Sys2Proof.Machine.execFrameAbandoned byte s
  | .discardedFrame frame => Sys2Proof.Machine.execDiscardedFrame frame s

end Sys2Proof.Machine
end

