-- ==== Sys2Proof/Safety.lean ====
section
/-! DEFINITION. What the device keeps at every step: invariants of its queues, of the point pool, of the
override stacks, of the targets, of the heat call list, of the attention outputs, of the registry, of the valve
channels and of the heat request. The statements about them are in Certificates. -/

namespace Sys2Proof.Machine

/-- A port's notice queue keeps to its 32 records (R183) and its attention output to its rule (R189). -/
def PortState.sound (p : PortState) : Prop :=
  p.notices.length ≤ Config.noticeMax ∧ p.attentionLow = p.attentionNeeded

def State.portsSound (s : State) : Prop := s.portA.sound ∧ s.portB.sound

/-- Every list is in strictly increasing minute of week and holds at most 64 points (R31). -/
def Store.listsSound (k : Store) : Prop :=
  ∀ z : Zone, k.lists[z].Pairwise (fun a b => a.minute < b.minute) ∧ k.lists[z].length ≤ Config.listMax

/-- The records on the 16 zone lists. -/
def Store.used (k : Store) : Nat := (allZones.map fun z => k.lists[z].length).sum

/-- The point pool (R31). -/
def State.poolSound (s : State) : Prop := s.store.free + s.store.used = Config.poolSize ∧ s.store.listsSound

/-- A stack never holds a BOOST together with a locked HOLD (R43). -/
def Stack.sound (k : Stack) : Prop := k.boost.isSome = true → k.hold.any (·.locked) = false

def State.stacksSound (s : State) : Prop := ∀ z : Zone, s.store.overrides[z].sound

/-- frost_floor and max_target lie in their ranges (10 section 10.8). -/
def Params.limitsSound (p : Params) : Prop :=
  30 ≤ p.frostFloor ∧ p.frostFloor ≤ 100 ∧ 200 ≤ p.maxTarget ∧ p.maxTarget ≤ 350

/-- Every resolved_target lies between frost_floor and max_target inclusive (R58). -/
def State.targetsSound (s : State) : Prop :=
  s.written.limitsSound ∧
    ∀ z : Zone, s.written.frostFloor ≤ s.zones[z].resolvedTarget ∧ s.zones[z].resolvedTarget ≤ s.written.maxTarget

/-- The heat call list holds the CALLING zones, each once (R14). -/
def State.callsSound (s : State) : Prop :=
  s.demand.heatList.Nodup ∧ ∀ z : Zone, z ∈ s.demand.heatList ↔ s.zones[z].callState = .calling

/-- The outbound queue keeps to its 8 frames (R103), the receive queue to its 16 slots (R114), and a frame on
the line that holds a reservation has its slot reserved (R96). -/
def State.busSound (s : State) : Prop :=
  s.bus.outbound.length ≤ Config.outboundMax ∧ s.receiveCount ≤ Config.receiveMax ∧
    ((s.bus.rx.any fun f => f.mode == .reserved) = true → s.report.reserved = true)

/-- While the part sends, the line is its own (R95) and the frame it sends stands in its place (R103, R106). A deferral
wait is that of the control frame, which may run beside an attempt of the outbound head, or of a head that is not in
transmission with the control slot empty (R107, R108). The last order of the hold-off state is the one in the control slot, or the pending one of the
opposite kind while the control frame is sent (R106). -/
def State.senderSound (s : State) : Prop :=
  (∀ a, s.bus.attempt = some a → s.bus.errState = .normal ∧ s.bus.line = .busy ∧ s.bus.rx = none ∧
    match a.source with
    | .control => s.bus.control.isSome = true ∧ s.bus.deferral = none
    | .outbound => s.bus.outbound ≠ []) ∧
  (∀ d, s.bus.deferral = some d →
    match d.source with
    | .control => s.bus.control.isSome = true
    | .outbound => s.bus.control = none ∧ s.bus.outbound ≠ [] ∧ s.bus.attempt = none) ∧
  let last : ControlKind := match s.report.holdOff with
    | .held => .holdOff
    | .flowing => .resume
  match s.bus.control, s.bus.pendingControl with
  | none, k => k = none
  | some f, none => f.kind = last
  | some f, some k => k = last ∧ f.kind ≠ k ∧ ∃ src, s.bus.attempt = some ⟨.control, src⟩

/-- A reply is discarded only while its request is on its way (R186, R199). -/
def PortState.discardSound (p : PortState) : Prop := p.discard = true → p.request = .inFlight

/-- The requests of the Report Processor (R71). -/
def StoreReq.ofReport : StoreReq → Prop
  | .boost .. => True
  | .boostCancel _ => True
  | .ownerRemoval .. => True
  | _ => False

/-- The Store Arbiter rests only with an empty waiting set (R72), the store order list holds requests of the Report
Processor (R116), and each port's discard keeps to its rule. -/
def State.arbiterSound (s : State) : Prop :=
  (s.arbiter.carrying = none → s.arbiter.waiting = ⟨none, none, none, none, none⟩) ∧
    (∀ r ∈ s.report.storeOrders, r.ofReport) ∧ s.portA.discardSound ∧ s.portB.discardSound

/-- No two occupied records of the registry hold the same address (R119). -/
def State.registrySound (s : State) : Prop :=
  ∀ (u v : UnitIx) (a b : UnitRecord), s.report.registry[u] = some a → s.report.registry[v] = some b →
    a.address = b.address → u = v

def Entry.isLoop : Entry → Bool
  | .moveTo _ .loop => true
  | _ => false

/-- An entry that needs the channel's motor. -/
def Entry.drives : Entry → Prop
  | .moveTo .. => True
  | .seekClosed => True
  | _ => False

/-- The queue keeps to its 8 entries, at most one of them an unstarted LOOP; urgent entries stand elsewhere (R139,
R150). -/
def ChannelRecord.queueSound (r : ChannelRecord) : Prop :=
  r.queue.length ≤ Config.commandMax ∧
    ((r.queue.drop (if r.headStarted then 1 else 0)).filter Entry.isLoop).length ≤ 1 ∧
    ∀ p, Entry.moveTo p .urgent ∉ r.queue

/-- What a channel of each state holds (R135, R139, R142): a MOVING one its movement, a DWELLING one its DWELL, a
WAITING one the entry it waits with; at rest and in FAULT nothing. -/
def ChannelRecord.workSound (r : ChannelRecord) : Prop :=
  match r.state with
  | .moving => ∃ e t n m, r.inProgress = some ⟨e, t, n, some m⟩ ∧
      ((∃ p, e = .moveTo p .urgent) ∨ (r.queue.head? = some e ∧ e.drives))
  | .dwelling => ∃ d t n, r.inProgress = some ⟨.dwell d, t, n, none⟩ ∧ r.queue.head? = some (.dwell d) ∧
      r.urgent = none
  | .waiting => r.inProgress = none ∧ (r.urgent.isSome = true ∨ ∃ e, r.queue.head? = some e ∧ e.drives)
  | .fault => r.inProgress = none ∧ r.queue = [] ∧ r.urgent = none
  | rest => r.inProgress = none ∧ r.queue = [] ∧ r.urgent = none ∧
      rest = if r.zone = none then .unassigned else if r.calibrated then .idle else .uncalibrated

/-- Drive slots and the slot waiting list (R143): the MOVING channels hold one slot each, the WAITING channels stand
on the list once each, and no channel waits while a slot is free. -/
def State.slotsSound (s : State) : Prop :=
  (∀ (i : Slot) (c : Channel), s.valves.slots[i] = some c → (s.channel c).state = .moving ∧
    ∃ e t n m, (s.channel c).inProgress = some ⟨e, t, n, some m⟩ ∧ m.slot = i) ∧
  (∀ c : Channel, (s.channel c).state = .moving → ∃ i : Slot, s.valves.slots[i] = some c) ∧
  s.valves.waiting.Nodup ∧ (∀ c : Channel, c ∈ s.valves.waiting ↔ (s.channel c).state = .waiting) ∧
  ((∃ i : Slot, s.valves.slots[i] = none) → s.valves.waiting = [])

/-- A channel is open_confirmed at a threshold (R153). -/
def ChannelRecord.openAt (threshold : Nat) (r : ChannelRecord) : Prop :=
  r.calibrated = true ∧ r.state ≠ .fault ∧ (∃ p, r.position = some p ∧ threshold ≤ p) ∧
    ∀ e t n m, r.inProgress = some ⟨e, t, n, some m⟩ → threshold ≤ m.target

/-- open_confirmed of every channel, flow_ready and valve_count of every zone, and the Firing Controller's picture of
flow_ready (R137, R153, R154, R164). -/
def State.flowSound (s : State) : Prop :=
  (∀ c : Channel, (s.channel c).openConfirmed = true ↔ (s.channel c).openAt s.taken.openThreshold) ∧
  ∀ z : Zone,
    (s.zones[z].flowReady = true ↔ ∃ c : Channel, (s.channel c).zone = some z ∧ (s.channel c).openConfirmed = true) ∧
    s.firing.picture.flowReady[z] = s.zones[z].flowReady ∧
    s.zones[z].valveCount = (allChannels.filter fun c => (s.channel c).zone = some z).length

/-- The Valve Drive Unit as a whole. -/
def State.valvesSound (s : State) : Prop :=
  (∀ c : Channel, (s.channel c).queueSound ∧ (s.channel c).workSound) ∧ s.slotsSound ∧ s.flowSound

/-- In REQUESTING and FIRING, and so whenever the heat request is on, the dump flag is clear, and the heat call list
holds a served zone that is flow_ready, or bypass_enable is on and a zone is served (R165). A zone in frost emergency
calls (R21), and the served zones of the picture stand on its list. -/
def State.heatSound (s : State) : Prop :=
  ((s.firing.state = .requesting ∨ s.firing.state = .firing) → s.firing.dump = false ∧
    ∃ z : Zone, z ∈ s.firing.picture.list ∧ s.firing.picture.served[z] = true ∧
      (s.firing.picture.flowReady[z] = true ∨ s.taken.bypassEnable = true)) ∧
  (∀ z : Zone, s.zones[z].frostEmergency = true → s.zones[z].callState = .calling) ∧
  ∀ z : Zone, s.firing.picture.served[z] = true → z ∈ s.firing.picture.list

/-! ### Reply bodies byte for byte (R200, R201)

The encodings of R200 said once more, from its table alone, for the statements about what a reply or a frame holds. -/

def byteOf (n : Nat) : Byte := BitVec.ofNat 8 n

def halfOf (n : Nat) : List Byte := be16 (BitVec.ofNat 16 n)

def wordOf (n : Nat) : List Byte := be32 (BitVec.ofNat 32 n)

def tempBytes (t : Int) : List Byte := be16 (BitVec.ofInt 16 t)

def yesNo (b : Bool) : Byte := if b then 1 else 0

/-- An enumerated value: its position, from 0, in the order its values are first listed. -/
def listed {α : Type} [DecidableEq α] (values : List α) (x : α) : Byte := byteOf (values.idxOf x)

def tempOrNone (t : Option Int) : List Byte := (t.map tempBytes).getD [0x80, 0x00]

/-- A zone, registry index or other number of one byte, or none. -/
def numberOrNone {n : Nat} (i : Option (Fin n)) : Byte := (i.map fun k => byteOf k.val).getD 0xFF

def portOrNone (p : Option Port) : Byte := (p.map (listed [Port.A, .B])).getD 0xFF

/-- A second count, or absent. -/
def countOrNone (n : Option Nat) : List Byte := (n.map wordOf).getD [0xFF, 0xFF, 0xFF, 0xFF]

/-- The seconds of a duration; those of more than 65535 seconds have no code of R200 (log 32). -/
def secondsOf (n : Nat) : List Byte := if n ≤ 65535 then halfOf n else be16 (Config.longDuration n)

def secondsOrNone (n : Option Nat) : List Byte := (n.map secondsOf).getD [0xFF, 0xFF]

/-- A number of one byte for whose absence R200 gives no code (log 11). -/
def numberOrFree (f : Config.Uncoded) (n : Option Nat) : Byte := (n.map byteOf).getD (Config.uncoded f)

def membersOf (members : List (List Byte)) : List Byte := byteOf members.length :: members.flatten

def presentOrNot (bytes : Option (List Byte)) : List Byte := (bytes.map fun b => 1 :: b).getD [0]

/-- READ_ZONE (R3): the record by the table of section 1.1, then the place on the heat call list. -/
def State.zoneBytes (s : State) (z : Zone) : List Byte :=
  let r := s.zones[z]
  [byteOf z.val, listed [ServiceMode.unused, .off, .inService] r.serviceMode] ++ tempBytes r.defaultTarget ++
    [numberOrNone r.primaryUnit] ++ tempBytes r.baseTarget ++ [listed [BaseSource.point, .default] r.baseSource] ++
    tempBytes r.resolvedTarget ++ [listed [Basis.base, .hold, .boost, .window, .floor] r.resolvedBasis] ++
    tempOrNone r.measured ++
    [listed [MeasureState.fresh, .aged, .blind] r.measureState, numberOrNone r.measureUnit, byteOf r.demand,
      listed [CallState.idle, .calling] r.callState, yesNo r.served, yesNo r.frostEmergency, yesNo r.flowReady,
      byteOf r.valveCount,
      numberOrFree .listPosition
        (if z ∈ s.demand.heatList then some (s.demand.heatList.idxOf z + 1) else none)]

/-- A registry record (R119, R124): index, state, and an occupied record's fields with the age of its last report. -/
def State.unitRecordBytes (s : State) (u : UnitIx) : List Byte :=
  match s.report.registry[u] with
  | none => [byteOf u.val, 0]
  | some r =>
    let role : Byte := match r.state with
      | .pending => Config.uncoded .role
      | .active _ k => listed [Role.sensor, .panel] k
    let (state, zone) : Byte × Option Zone := match r.state with
      | .pending => (1, none)
      | .active z _ => (2, some z)
    [byteOf u.val, state, r.address] ++ be32 r.serial ++ [r.unitType, numberOrNone zone, role] ++
      tempOrNone r.lastTemp ++ [numberOrFree .humidity (r.lastHumidity.map (·.toNat))] ++ countOrNone r.lastReport ++
      [listed [Freshness.fresh, .stale, .lost] r.freshness, byteOf r.implausibleCount, yesNo r.faulty] ++
      secondsOrNone (r.lastReport.map fun t => s.now - t)

/-- UNIT_READ (R124). -/
def State.unitBytes (s : State) (u : UnitIx) : List Byte :=
  s.unitRecordBytes u ++
    (if (s.report.registry[u]).isSome then
      membersOf ((allZones.filter fun z => s.zones[z].measureUnit = some u).map fun z => [byteOf z.val])
    else []) ++
    [byteOf (s.report.queue.length + if s.report.reserved then 1 else 0),
      listed [HoldOffState.flowing, .held] s.report.holdOff,
      byteOf (allUnits.filter fun v => (s.report.registry[v]).isSome).length]

/-- An entry: MOVE_TO 0, DWELL 1, SEEK_CLOSED 2, MARK 3, with its value; a MOVE_TO in the queue with its origin, a
LOOP one with whether it is unstarted. -/
def entryBytes (unstarted : Bool) : Entry → List Byte
  | .moveTo p .loop => [0, byteOf p, 0, yesNo unstarted]
  | .moveTo p .service => [0, byteOf p, 1]
  | .moveTo p .urgent => [0, byteOf p]
  | .dwell d => 1 :: halfOf d
  | .seekClosed => [2]
  | .mark owner tag => [3, listed [Port.A, .B] owner, tag]

/-- The entry in progress (R134). -/
def InProgress.recordBytes (i : InProgress) : List Byte :=
  (match i.entry with
    | .moveTo p origin => [0, byteOf p, yesNo (origin == .urgent)]
    | e => entryBytes false e ++ [0]) ++
    wordOf i.startSecond ++
    (match i.move with
      | some m => [numberOrFree .position m.start, byteOf m.target, byteOf m.slot.val]
      | none => [])

/-- What R156 adds while MOVING and while DWELLING. -/
def InProgress.runningBytes (i : InProgress) (calibrated : Bool) (ticks : Nat) : List Byte :=
  match i.move, i.entry with
  | some m, _ =>
    [byteOf m.slot.val, byteOf m.target, if m.opening then 0 else 1] ++
      halfOf (wholeSeconds (ticks - i.startTick)) ++
      [numberOrFree .position (if calibrated then m.estimate (ticks - i.startTick) else none)]
  | none, .dwell d => halfOf (wholeSeconds (i.startTick + d * 32768 - ticks))
  | none, _ => []

/-- A channel record (R134, R156). -/
def State.channelRecordBytes (s : State) (c : Channel) : List Byte :=
  let r := s.channel c
  let started := if r.headStarted then 1 else 0
  [numberOrNone r.zone,
      listed [ChannelState.unassigned, .uncalibrated, .idle, .waiting, .moving, .dwelling, .fault] r.state,
      yesNo r.calibrated, numberOrFree .position r.position] ++
    halfOf r.fullStroke ++ [byteOf r.minPos, byteOf r.maxPos] ++ countOrNone r.lastMoved ++ [yesNo r.openConfirmed] ++
    presentOrNot (r.inProgress.map InProgress.recordBytes) ++
    ((r.inProgress.map fun i => i.runningBytes r.calibrated s.clock.ticks).getD []) ++
    (byteOf r.queue.length ::
      ((r.queue.take started).flatMap (entryBytes false) ++ (r.queue.drop started).flatMap (entryBytes true))) ++
    presentOrNot (r.urgent.map fun p => [byteOf p]) ++
    [numberOrFree .listPlace (if c ∈ s.valves.waiting then some (s.valves.waiting.idxOf c + 1) else none)] ++
    secondsOrNone (r.lastMoved.map fun t => s.now - t) ++
    ((r.zone.map fun z => [yesNo s.zones[z].flowReady]).getD [])

/-- VALVE_READ (R156): the record, the three slots and the length of the waiting list. -/
def State.channelBytes (s : State) (c : Channel) : List Byte :=
  s.channelRecordBytes c ++
    [numberOrNone s.valves.slots[0], numberOrNone s.valves.slots[1], numberOrNone s.valves.slots[2],
      byteOf s.valves.waiting.length]

/-- FIRING_READ (R181). -/
def State.firingBytes (s : State) : List Byte :=
  let f := s.firing
  let timer := fun t : Option Nat => (t.map fun e => halfOf (wholeSeconds (e - s.clock.ticks))).getD [0xFF, 0xFF]
  listed [FiringState.off, .requesting, .firing, .runout, .anticycle, .lockout, .linkDown] f.state ::
    secondsOf (s.now - f.stateEntered) ++
    [yesNo (f.state == .requesting || f.state == .firing), yesNo f.pumpRequest, byteOf f.setpoint] ++
    membersOf (f.runoutSet.map fun z => [byteOf z.val]) ++ timer f.runoutTimer ++
    secondsOrNone (f.offSince.map fun t => s.now - t) ++
    (match f.offSince with
      | some t => if s.now < t + s.taken.minOff then halfOf (t + s.taken.minOff - s.now) else [0xFF, 0xFF]
      | none => [0xFF, 0xFF]) ++
    timer f.lockoutPumpTimer ++
    [yesNo f.dump, yesNo f.frostSkip, byteOf f.resetsToday, yesNo f.pendingReset, if s.link.up then 0 else 1,
      byteOf s.link.missCount] ++
    presentOrNot (s.link.lastStatus.map fun l =>
      [yesNo l.status.flame, yesNo l.status.lockout, byteOf l.status.flow, byteOf l.status.ret, l.status.faultCode] ++
        secondsOf (s.now - l.arrival))

/-- READ_CONFIG (R88, R198): the device parameters in the order of their numbers, the contacts, the orders. -/
def State.configBytes (s : State) : List Byte :=
  let p := s.written
  let order := fun o : WindowOrder => [byteOf o.zone.val, listed [OrderKind.push, .remove] o.kind]
  let request := fun r : Option StoreReq => match r with
    | some (.window z k) => [order ⟨z, k⟩]
    | _ => []
  tempBytes p.frostFloor ++ tempBytes p.maxTarget ++ halfOf p.claimLapse ++ tempBytes p.propBand ++
    [byteOf p.callOn, byteOf p.callOff] ++ halfOf p.loopPeriod ++
    [byteOf p.deadband, byteOf p.blindOpening, byteOf p.servedLimit, byteOf p.openThreshold, yesNo p.exerciseEnable,
      byteOf p.minFlow, byteOf p.maxFlow] ++ halfOf p.runoutTime ++ halfOf p.minOff ++
    [yesNo p.bypassEnable, byteOf p.dumpThreshold] ++ halfOf p.linkPeriod ++ [byteOf p.linkMisses] ++
    halfOf p.staleAge ++ halfOf p.lostAge ++ tempBytes p.plausLow ++ tempBytes p.plausHigh ++
    [byteOf p.holdoffLevel, byteOf p.resumeLevel, p.ownAddress] ++ halfOf p.deferralLimit ++ [byteOf p.backoffCap] ++
    (allZones.flatMap fun z =>
      let k := p.contacts[z]
      let i := s.contacts.inputs[z]
      [yesNo k.enable, listed [Polarity.lowOpen, .highOpen] k.polarity, byteOf k.debounce, yesNo k.openEdgeNotice,
          yesNo k.closeEdgeNotice] ++ halfOf k.windowDelay ++
        [listed [ContactState.isOpen, .isClosed] i.stableState, byteOf i.run] ++
        (match i.openTimer with
          | some quarters => if quarters % 4 = 0 then halfOf (quarters / 4) else be16 (Config.openTimerCode quarters)
          | none => [0xFF, 0xFF]) ++ [yesNo i.windowAsserted]) ++
    membersOf (s.contacts.pendingOrders.map order) ++
    membersOf (request (s.arbiter.carrying.map (·.req)) ++ request s.arbiter.waiting.contact)

/-- The position of a status code in the table of section 10.3. -/
def statusByte : Status → Byte :=
  listed [.ok, .badFrame, .unknownKind, .range, .noClaim, .heldByOther, .poolFull, .listFull, .duplicateTime,
    .notFound, .notAuthority, .queueFull, .limit, .state, .busy, .nothing]

/-- A programme point read from its 24 bits (section 11.2): bits 23 to 10 the minute of week, bit 9 the kind, bits 8
to 0 the target in tenths less 30; none when the minute or the target is out of range. What bits 8 to 0 of a
SETBACK_TO_DEFAULT hold is not looked at (log 22). -/
def pointRead (frostFloor maxTarget : Int) (w : BitVec 24) : Option Point :=
  let minute := w.toNat / 1024
  let target : Int := (w.toNat % 512 : Nat) + 30
  if 10080 ≤ minute then none
  else if w.toNat / 512 % 2 = 1 then some ⟨minute, .setbackToDefault⟩
  else if frostFloor ≤ target ∧ target ≤ maxTarget then some ⟨minute, .target target⟩
  else none

/-- A programme point in three bytes, most significant first (section 11.2). -/
def Point.recordBytes (q : Point) : List Byte :=
  let n := q.minute * 1024 + match q.kind with
    | .target t => (t - 30).toNat
    | .setbackToDefault => 512
  [byteOf (n / 65536), byteOf (n / 256), byteOf n]

/-- The current point of a zone as SCHEDULE_READ reports it (R42): its index in the list, for whose absence R200 gives
no code (log 11), and its minute of week. -/
def State.currentPointBytes (s : State) (z : Zone) : List Byte :=
  match s.store.current[z] with
  | none => [Config.uncoded .currentIndex, 0xFF, 0xFF]
  | some m =>
    let minutes := s.store.lists[z].map (·.minute)
    numberOrFree .currentIndex (if m ∈ minutes then some (minutes.idxOf m) else none) :: halfOf m

/-- The ranges of the parameters 0 to 34, in the order of the table of 10 section 10.8: temperatures in tenths, on/off
as 1 and 0. Of call_off and resume_level the table gives no highest value of their own (log 17). -/
def parameterRanges : List (Int × Int) :=
  [(30, 100), (200, 350), (5, 300), (5, 50), (10, 60), (0, 65535), (10, 120), (1, 20), (0, 100), (1, 16), (5, 50), (0, 1)] ++
    [(25, 50), (50, 85), (0, 600), (0, 900), (0, 1), (80, 95), (1, 5), (2, 10)] ++
    [(60, 1800), (120, 3600), (-200, 100), (300, 600), (2, 16), (0, 65535), (8, 119), (50, 1000), (1, 6)] ++
    [(0, 1), (0, 1), (1, 8), (0, 1), (0, 1), (0, 600)]

/-- FAULT_READ (R194). -/
def State.faultBytes (s : State) (p : Port) : List Byte :=
  presentOrNot ((s.port p).fault.map fun f =>
    [f.kind.getD (Config.uncoded .replyKind), statusByte f.status, f.subject.getD 0xFF] ++ wordOf f.arisen ++
      [byteOf f.later])

/-- A notice record (section 11.3). -/
def Notice.recordBytes (n : Notice) : List Byte :=
  let subject : List Byte := match n.subject with
    | .zone z => [0, byteOf z.val]
    | .channel c => [1, byteOf c.val]
    | .unit u => [2, byteOf u.val]
    | .port p => [3, listed [Port.A, .B] p]
    | .address a => [4, a]
    | .none => [5, 0xFF]
  let kind := listed [NoticeKind.targetChanged, .overrideReplaced, .overrideExpired, .claimLapsed, .contactChanged,
    .unitJoined, .unitStale, .unitLost, .reportImplausible, .addressConflict, .registryFull, .sendFailed, .busError,
    .valveJam, .valveMark, .noEndStop, .firingState, .linkDown, .linkUp, .heatDump, .frostEmergency, .timeSet] n.kind
  kind :: subject ++ wordOf n.arisen ++ [byteOf n.detail.length] ++ n.detail

/-- What a FETCH clocks out (section 11.2): the header of seven bytes, then the item. -/
def FetchInProgress.clocked (f : FetchInProgress) : List Byte :=
  let (content, status, item) : Byte × Byte × List Byte := match f.item with
    | .nothing => (0, 15, [])
    | .reply r =>
      let b := r.kind.getD (Config.uncoded .replyKind) :: r.body
      (1, statusByte r.status, b ++ [crc8 b])
    | .notice n => (2, 0, n.recordBytes ++ [crc8 n.recordBytes])
  let header := [content, status, yesNo f.lost, byteOf f.waiting] ++ halfOf item.length
  header ++ [crc8 header] ++ item

/-! ### The shape of a request's outcome -/

/-- The port is IDLE and no reset of it is pending on a request in flight (R186, R199). -/
def State.portIdle (s : State) (p : Port) : Prop := (s.port p).request = .idle ∧ (s.port p).discard = false

/-- The Store Arbiter is idle with an empty waiting set (R71, R72). -/
def State.arbiterIdle (s : State) : Prop :=
  s.arbiter.carrying = none ∧ s.arbiter.waiting = ⟨none, none, none, none, none⟩

/-- The port's next request is taken, and granted at once if it goes through the arbiter. -/
def State.ready (s : State) (p : Port) : Prop := s.portIdle p ∧ s.arbiterIdle

/-- A fault record after one more refusal (R193). -/
def faultAfter (f : Option FaultRecord) (kind : Option Byte) (st : Status) (subject : Option Byte) (now : Nat) :
    Option FaultRecord :=
  match f with
  | none => some ⟨kind, st, subject, now, 0⟩
  | some f => some { f with later := min 255 (f.later + 1) }

/-- What a port records of a request from its frame to its reply (R185 to R187, R189, R193): the other port has
seen a good frame, the reply stands in the reply slot, a refusal in the fault record, attention is low. -/
def State.afterReply (p : Port) (r : HostReq) (st : Status) (body : List Byte) (s : State) : State :=
  let t := s.modPort p.other fun ps => { ps with otherSeen := true }
  t.modPort p fun ps =>
    { ps with
      slot := some r
      request := .replyReady
      reply := some ⟨some r.kind, st, body⟩
      fault := if st = .ok then ps.fault else faultAfter ps.fault (some r.kind) st r.subject s.now }

/-- A good request taken by an idle port and on its way (R185, R186). -/
def State.inFlight (p : Port) (r : HostReq) (s : State) : State :=
  let t := s.modPort p.other fun ps => { ps with otherSeen := true }
  t.modPort p fun ps => { ps with slot := some r, request := .inFlight }

/-- A request of a port being carried out, with nothing waiting; what leaves at its completion (R72, R73). -/
def State.carrying (p : Port) (req : StoreReq) (result : StoreResult) (s : State) : State :=
  { s with arbiter := ⟨⟨none, none, none, none, none⟩, some ⟨req, result⟩, p.requester⟩ }

/-- A request of the Program Store granted to a ready port at once, as it stands until its completion. -/
def State.granted (p : Port) (r : HostReq) (st : Status) (body : List Byte) (used : Option ClaimIx) (s : State) :
    State :=
  State.carrying p (.host p r) (.reply st body used) (s.inFlight p r)

/-- The command of a port's request: its good frame at the end of the transaction (R185). -/
def requestCommand (p : Port) : HostReq → Instr
  | .identify => .identify p
  | .readZone z => .readZone p z
  | .setZone z m t u => .setZone p z m t u
  | .scheduleInsert z m k t => .scheduleInsert p z m k t
  | .scheduleDelete z m => .scheduleDelete p z m
  | .scheduleLoad z l => .scheduleLoad p z l
  | .scheduleRead z n => .scheduleRead p z n
  | .claim t => .claim p t
  | .release t => .release p t
  | .pushHold z t l e m => .pushHold p z t l e m
  | .cancelHold z => .cancelHold p z
  | .cancelBoost z => .cancelBoost p z
  | .setTime m n => .setTime p m n
  | .releaseTime => .releaseTime p
  | .readTime => .readTime p
  | .configure l => .configure p l
  | .readConfig => .readConfig p
  | .unitAdmit u z k => .unitAdmit p u z k
  | .unitRemove u => .unitRemove p u
  | .unitRead u => .unitRead p u
  | .valveAssign c z f lo hi => .valveAssign p c z f lo hi
  | .valveService c l => .valveService p c l
  | .valveClear c => .valveClear p c
  | .valveRead c => .valveRead p c
  | .firingRead => .firingRead p
  | .clearLockout => .clearLockout p
  | .noticeMask l b => .noticeMask p l b
  | .faultRead b => .faultRead p b
  | .portReset => .portReset p

/-- The claim a request needs (the table of section 4.3, R69): the zone claim of the zone it names, the claim of the
channel's zone, or the configuration claim, which is also that of a channel without zone; none when no zone or channel
has the number named. -/
def State.claimNeeded (s : State) : HostReq → Option ClaimIx
  | .setZone z .. | .scheduleInsert z .. | .scheduleDelete z _ | .scheduleLoad z _ =>
    if h : z.toNat < 16 then some (zoneClaim ⟨z.toNat, h⟩) else none
  | .configure _ | .unitAdmit .. | .unitRemove _ | .valveAssign .. => some configClaim
  | .valveService c _ =>
    if h : c.toNat < 24 then
      some (match (s.channel ⟨c.toNat, h⟩).zone with
        | some z => zoneClaim z
        | none => configClaim)
    else none
  | .identify | .readZone _ | .scheduleRead .. | .claim _ | .release _ | .pushHold .. | .cancelHold _ | .cancelBoost _
  | .setTime .. | .releaseTime | .readTime | .readConfig | .unitRead _ | .valveClear _ | .valveRead _ | .firingRead
  | .clearLockout | .noticeMask .. | .faultRead _ | .portReset => none

/-- What a request places at the Store Arbiter in its port's name (the tables of sections 10.3 and 4.4): itself, the
claim check of a request of another block, or the step of a port reset; none when it is answered as it is taken. -/
def State.placedFor (s : State) (p : Port) (r : HostReq) : Option StoreReq :=
  match r with
  | .setZone .. | .scheduleInsert .. | .scheduleDelete .. | .scheduleLoad .. | .scheduleRead .. | .claim _
  | .release _ | .pushHold .. | .cancelHold _ | .cancelBoost _ | .setTime .. | .releaseTime | .configure _ =>
    some (.host p r)
  | .unitAdmit .. | .unitRemove _ | .valveAssign .. | .valveService .. => (s.claimNeeded r).map (.check p r)
  | .portReset => some (.resetStep p)
  | .identify | .readZone _ | .readTime | .readConfig | .unitRead _ | .valveClear _ | .valveRead _ | .firingRead
  | .clearLockout | .noticeMask .. | .faultRead _ => none

/-- The port holds the claim and no request has frozen it yet, or has (R63, R68). -/
def State.heldBy (s : State) (c : ClaimIx) (p : Port) : Prop := ∃ h, s.store.claims[c] = some h ∧ h.holder = p

/-- The claim frozen for a request of its holder (R68). -/
def State.frozenFor (c : ClaimIx) (s : State) : State :=
  s.setClaim c (s.store.claims[c].map fun h => { h with frozen := true })

/-- A request taken by an idle port that stands in the port's place of the waiting set (R71), the claim it needs frozen
when the port holds it (R68). -/
def State.joined (p : Port) (r : HostReq) (req : StoreReq) (s : State) : State :=
  let u := match s.claimNeeded r with
    | some c => if s.holds p c then s.frozenFor c else s
    | none => s
  let t := u.inFlight p r
  { t with arbiter := { s.arbiter with waiting := s.arbiter.waiting.set p.requester (some req) } }

/-- The end of a port's request (R67, R72, R187): its reply has reached the port, the claim it used and still holds
is restarted, and the arbiter is idle, parked on the port. -/
def State.finished (p : Port) (r : HostReq) (st : Status) (body : List Byte) (used : Option ClaimIx) (s : State) :
    State :=
  let t := s.afterReply p r st body
  let u := match used with
    | some c => if s.holds p c then t.setClaim c (some ⟨p, s.written.claimLapse, false⟩) else t
    | none => t
  { u with arbiter := ⟨⟨none, none, none, none, none⟩, none, p.requester⟩ }

/-- Nothing differs but the store, the arbiter, the base and the resolution of zone records, and what follows a
resolution (R60, R61): ANNOUNCE frames, notices, zone events. -/
def State.onlyStoreAndTargets (s t : State) : Prop :=
  t = { s with
    store := t.store
    arbiter := t.arbiter
    zones := t.zones
    demand := { s.demand with zoneEvents := t.demand.zoneEvents }
    bus := { s.bus with
      outbound := t.bus.outbound, outboundBackoff := t.bus.outboundBackoff, deferral := t.bus.deferral }
    portA := { s.portA with
      notices := t.portA.notices, noticesLost := t.portA.noticesLost, attentionLow := t.portA.attentionLow }
    portB := { s.portB with
      notices := t.portB.notices, noticesLost := t.portB.noticesLost, attentionLow := t.portB.attentionLow } } ∧
  ∀ z : Zone, t.zones[z] = { s.zones[z] with
    baseTarget := t.zones[z].baseTarget
    baseSource := t.zones[z].baseSource
    resolvedTarget := t.zones[z].resolvedTarget
    resolvedBasis := t.zones[z].resolvedBasis }

/-- The zone stands resolved: its resolved fields are what R58 gives from its other fields and its stack. -/
def State.resolvedAt (s : State) (z : Zone) : Prop :=
  (s.zones[z].resolvedTarget, s.zones[z].resolvedBasis) =
    resolve s.zones[z].serviceMode s.zones[z].baseTarget s.store.overrides[z] s.written.frostFloor s.written.maxTarget

/-- The current point of a zone is the one R33 gives, with the base of R34. -/
def State.pointAt (s : State) (z : Zone) : Prop :=
  let point := currentPoint s.clock.timeValid s.clock.minute s.store.lists[z]
  s.store.current[z] = point.map (·.minute) ∧
    (s.zones[z].baseTarget, s.zones[z].baseSource) = baseOf point s.zones[z].defaultTarget

/-- The notices of one kind in a port's queue, in their order. -/
def PortState.queued (k : NoticeKind) (p : PortState) : List Notice := p.notices.filter fun n => n.kind = k

/-- A zone keeps the outcome of its last resolution while its base and its stack stay, and stands resolved after
every change of them (R57): s before, t after. A zone that stood resolved so stands resolved. -/
def State.resolvedOnChange (s t : State) (z : Zone) : Prop :=
  let same := t.zones[z].baseTarget = s.zones[z].baseTarget ∧ t.zones[z].baseSource = s.zones[z].baseSource ∧
    t.store.overrides[z] = s.store.overrides[z]
  (¬ same ∨ s.resolvedAt z → t.resolvedAt z) ∧
    (same → t.zones[z].resolvedTarget = s.zones[z].resolvedTarget ∧
      t.zones[z].resolvedBasis = s.zones[z].resolvedBasis)

/-- OVERRIDE_EXPIRED with cause POINT for the UNTIL_NEXT_POINT hold of a zone that a point transition ends (R48): s
before, t after. -/
def State.expiredByPoint (s t : State) (z : Zone) : List Notice :=
  match s.store.overrides[z].hold with
  | some h =>
    if t.store.current[z] ≠ s.store.current[z] ∧ h.holdEnd = .untilNextPoint then
      [⟨.overrideExpired, .zone z, t.now, [0, 1, listed [Port.A, .B] h.owner]⟩]
    else []
  | none => []

/-- OVERRIDE_EXPIRED with cause COUNT for what m minutes end on a zone's stack, the HOLD first (R47): s before, t
after. -/
def State.expiredByCount (m : Nat) (s t : State) (z : Zone) : List Notice :=
  (match s.store.overrides[z].hold with
    | some h => match h.holdEnd with
      | .duration r =>
        if r ≤ m then [⟨.overrideExpired, .zone z, t.now, [0, 0, listed [Port.A, .B] h.owner]⟩] else []
      | _ => []
    | none => []) ++
    match s.store.overrides[z].boost with
    | some b => if b.remaining ≤ m then [⟨.overrideExpired, .zone z, t.now, [1, 0, byteOf b.owner.val]⟩] else []
    | none => []

/-- The VALVE_MARK notices of a channel in a port's queue, in their order. -/
def PortState.marksOf (c : Channel) (p : PortState) : List Notice :=
  p.notices.filter fun n => n.kind = .valveMark ∧ n.subject = .channel c

/-- VALVE_MARK with outcome ABORTED for each MARK of a port among the entries a flush discards, in queue order
(R138). -/
def marksAborted (q : Port) (c : Channel) (now : Nat) (entries : List Entry) : List Notice :=
  entries.filterMap fun e => match e with
    | .mark owner tag => if owner = q then some ⟨.valveMark, .channel c, now, [tag, 1]⟩ else none
    | _ => none

/-- What a taken schedule edit leaves: the new list, the pool's free count, the next list_revision, the current
point with its base; the zone resolved when its base changed; the reply; every other zone as it was. A transition
found after an edit ends no hold (R48). -/
def State.editedBy (p : Port) (r : HostReq) (z : Zone) (l : List Point) (s m : State) : Prop :=
  let f := State.frozenFor (zoneClaim z) s
  m.arbiter = (f.granted p r .ok ([BitVec.ofNat 8 l.length] ++ be16 (BitVec.ofNat 16 m.store.free) ++
    [s.store.revisions[z] + 1]) (some (zoneClaim z))).arbiter ∧
  m.store = { f.store with
    lists := s.store.lists.set z l
    free := s.store.free + s.store.lists[z].length - l.length
    revisions := s.store.revisions.set z (s.store.revisions[z] + 1)
    current := m.store.current } ∧
  m.pointAt z ∧
  State.resolvedOnChange s m z ∧
  (∀ q : Port, (m.port q).queued .overrideExpired = (s.port q).queued .overrideExpired) ∧
  (∀ y : Zone, y ≠ z → m.zones[y] = s.zones[y] ∧ m.store.current[y] = s.store.current[y]) ∧
  State.onlyStoreAndTargets (s.inFlight p r) m

/-- What a minute evaluation covering m minutes makes of the zones and stacks (R33 to R36, R47, R48), and the
OVERRIDE_EXPIRED notices it raises, zone by zone, a hold ended by its point before what ends by its count: s before, t
after. -/
def State.evaluatedBy (m : Nat) (s t : State) : Prop :=
  (∀ q : Port, (s.port q).mask[2] = true → (t.port q).noticesLost = false →
    (t.port q).queued .overrideExpired = (s.port q).queued .overrideExpired ++
      allZones.flatMap fun z => s.expiredByPoint t z ++ s.expiredByCount m t z) ∧
  ∀ z : Zone,
    let k := s.store.overrides[z]
    let ended := t.store.current[z] ≠ s.store.current[z] ∧ k.hold.any (·.holdEnd = .untilNextPoint) = true
    t.pointAt z ∧
    t.store.overrides[z] =
      { hold := if ended then none else k.hold.bind (Hold.lower m)
        boost := k.boost.bind (Boost.lower m)
        window := k.window } ∧
    State.resolvedOnChange s t z

/-- A block's later moment: the crystal at a tick that is due, or where it already stands beyond it. -/
def State.ticksAt (s : State) (due : Nat) : Nat := max s.clock.ticks due

/-- A CLAIM of a port for a claim waits at the Store Arbiter or is being carried out. -/
def State.asksFor (s : State) (p : Port) (c : ClaimIx) : Prop :=
  ∃ b : Byte, b.toNat = c.val ∧
    (s.arbiter.waiting.get p.requester = some (.host p (.claim b)) ∨
      s.arbiter.carrying.map (·.req) = some (.host p (.claim b)))

/-- What a second event makes of a claim (R66): s before, t after. The count of a claim whose holder asks for it does
not run out (04 section 4.2). -/
def State.claimCounted (c : ClaimIx) (s t : State) : Prop :=
  match s.store.claims[c] with
  | none => t.store.claims[c] = none
  | some h =>
    (h.frozen = true → t.store.claims[c] = some h) ∧
    (h.frozen = false → 1 < h.remaining → t.store.claims[c] = some { h with remaining := h.remaining - 1 }) ∧
    (h.frozen = false → h.remaining ≤ 1 →
      (s.asksFor h.holder c → t.store.claims[c] = some h) ∧ (¬ s.asksFor h.holder c → t.store.claims[c] = none))

/-- A zone's demand, call state and emergency after an evaluation of it (R10 to R12, R20 to R22). -/
def demandAfter (taken : Params) (r : ZoneRecord) : Bool × Nat × CallState :=
  let frost := !frostExit r taken.frostFloor && (r.frostEmergency || frostEntry r taken.frostFloor)
  if frost then (true, 100, .calling)
  else
    let d := ordinaryDemand r taken.frostFloor taken.propBand taken.blindOpening
    (false, d, nextCall r.callState d taken.callOn taken.callOff)

/-- The loop moves of some zones (R17, R18): zone by zone, the channels of each in increasing number. A calibrated
channel that is IDLE, WAITING, MOVING or DWELLING is given its requested position, when it is worth a movement, as a
loop move. -/
def State.loopMoved (zones : List Zone) (u : State) : State :=
  let channels := zones.flatMap fun z =>
    (allChannels.filter fun c => (u.channel c).zone = some z).map fun c => (z, c)
  channels.foldl (init := u) fun w x =>
    let r := w.channel x.2
    let p := requestedPosition w.zones[x.1] r.minPos r.maxPos
    if (r.state = .idle ∨ r.state = .waiting ∨ r.state = .moving ∨ r.state = .dwelling) ∧ r.calibrated = true ∧
        worthIssuing w.demand.lastIssued[x.2] p w.taken.deadband = true then
      placeLoopMove x.2 p w
    else w

/-- Entry into frost emergency as the zone table, the valves and the ports see it (R20, 1 to 3): the flag, an urgent
MOVE_TO 100 in every channel of the zone in increasing number (R150), FROST_EMERGENCY at both ports. -/
def State.frostEntered (z : Zone) (s : State) : State :=
  let marked := s.modZone z fun r => { r with frostEmergency := true }
  let channels := allChannels.filter fun c => (s.channel c).zone = some z
  raise .frostEmergency (.zone z) [] (forEach channels (placeUrgent 100) marked)

/-- The Valve Drive Unit, and what it has told the zones and the Demand Unit, are alike. -/
def State.sameValves (s t : State) : Prop :=
  t.valves = s.valves ∧ t.demand.lastIssued = s.demand.lastIssued ∧
    ∀ z : Zone, t.zones[z].flowReady = s.zones[z].flowReady

/-- An entry that a channel at rest does without a movement (R142): a MARK, or a host's MOVE_TO to its position. -/
def ChannelRecord.doneWithoutMovement (r : ChannelRecord) (e : Entry) : Prop :=
  (∃ owner tag, e = .mark owner tag) ∨ ∃ p, e = .moveTo p .service ∧ r.position = some p

/-- VALVE_MARK with outcome DONE at the owner of each MARK among some entries, in their order (R142). -/
def State.marksDone (c : Channel) (entries : List Entry) (s : State) : State :=
  entries.foldl (init := s) fun w e => match e with
    | .mark owner tag => raiseTo owner .valveMark (.channel c) [tag, 0] w
    | _ => w

/-- The place of a requester in the arbiter's ring (R72). -/
def Requester.place : Requester → Nat
  | .portA => 0 | .portB => 1 | .report => 2 | .contact => 3 | .clock => 4

/-- How far a requester stands after another one in the ring: 0 for the next one, 4 for itself (R72). -/
def Requester.after (parked q : Requester) : Nat := (q.place + 4 - parked.place) % 5

/-- A zone is served: it stands among the first served_limit of the heat call list, or is in frost emergency
(R15). -/
def State.isServed (s : State) (z : Zone) : Bool :=
  decide (z ∈ s.demand.heatList.take s.taken.servedLimit) || s.zones[z].frostEmergency

/-- A contact input's working fields after a sample (R80, R81, R83 to R85). -/
def inputAfter (k : ContactSettings) (high : Bool) (i : InputWork) : InputWork :=
  if k.enable then
    let reading := readContact k.polarity high
    if reading ≠ i.stableState ∧ k.debounce ≤ i.run + 1 then
      match reading with
      | .isOpen =>
        if k.windowDelay = 0 then { i with stableState := .isOpen, run := 0, windowAsserted := true }
        else { i with stableState := .isOpen, run := 0, openTimer := some 0 }
      | .isClosed => { i with stableState := .isClosed, run := 0, openTimer := none, windowAsserted := false }
    else
      let run := if reading = i.stableState then 0 else i.run + 1
      match i.openTimer with
      | some e =>
        if 4 * k.windowDelay ≤ e + 1 then { i with run := run, openTimer := none, windowAsserted := true }
        else { i with run := run, openTimer := some (e + 1) }
      | none => { i with run := run }
  else i

/-- What the part drives in the acknowledge slot of a byte it judges: nothing on a broadcast (R91). -/
def slotAnswer (dest : Byte) (accepted : Bool) : Ack :=
  if dest = 0 then .undriven else if accepted then .ack else .nack

/-- The count of the receive queue is away from the level that changes the hold-off state (R117). -/
def State.holdOffStays (s : State) (count : Nat) : Prop :=
  match s.report.holdOff with
  | .flowing => count < s.taken.holdoffLevel
  | .held => s.taken.resumeLevel < count

/-- The hold-off state has been judged by a new count of the receive queue (R117): s before, t after. At
holdoff_level a HOLD_OFF is ordered, at resume_level a RESUME, placed by the table of R106. -/
def State.holdOffJudged (count : Nat) (s t : State) : Prop :=
  let ordered := fun (k : ControlKind) (h : HoldOffState) =>
    t.report.holdOff = h ∧
    (s.bus.control = none → t.bus.control = some ⟨k, 0⟩) ∧
    ∀ f, s.bus.control = some f → (∀ src, s.bus.attempt ≠ some ⟨.control, src⟩) → f.kind ≠ k → t.bus.control = none
  (s.holdOffStays count → t.report.holdOff = s.report.holdOff ∧ t.bus.control = s.bus.control) ∧
  (s.report.holdOff = .flowing → s.taken.holdoffLevel ≤ count → ordered .holdOff .held) ∧
  (s.report.holdOff = .held → count ≤ s.taken.resumeLevel → ordered .resume .flowing)

/-- The end of a deferral wait that starts now (R108): deferral_limit milliseconds from now, in whole periods of the
crystal. -/
def State.deferralEnd (s : State) : Nat := s.clock.ticks + (s.taken.deferralLimit * 32768 + 999) / 1000

/-- The lengths of R94 by kind: TEMP 2 or 3, BOOST 3, BOOST_CANCEL 0, JOIN 5. -/
def lengthFits (kind len : Byte) : Prop :=
  kind = 0x00 ∧ (len = 2 ∨ len = 3) ∨ kind = 0x01 ∧ len = 3 ∨ kind = 0x02 ∧ len = 0 ∨ kind = 0x03 ∧ len = 5

/-- A slot's backoff after its n-th failed attempt (R110): r slots of 2 ms from now, 66 periods of the crystal for
the first, none when r is 0. -/
def State.backoffOf (s : State) (n : Nat) : Option Nat :=
  let r := s.bus.backoffReg.toNat % 2 ^ min n s.taken.backoffCap
  if r = 0 then none else some (s.clock.ticks + (2 * r * 32768 + 999) / 1000)

/-- The deferral wait of the frame that is ready (R107, R108): the control slot's frame goes ahead of the outbound head,
and a frame in transmission or in its backoff is not ready. A wait of the control frame that runs goes on, and a frame
that has just become ready has a new one. -/
def State.nextDeferral (running : Option Deferral) (s : State) : Option Deferral :=
  let sending := s.bus.attempt.map (·.source)
  match s.bus.control with
  | some _ =>
    if s.bus.controlBackoff = none ∧ sending ≠ some .control then
      some (match running with
        | some ⟨.control, ends⟩ => ⟨.control, ends⟩
        | _ => ⟨.control, s.deferralEnd⟩)
    else none
  | none =>
    if s.bus.outbound ≠ [] ∧ s.bus.outboundBackoff = none ∧ sending ≠ some .outbound then
      some ⟨.outbound, s.deferralEnd⟩
    else none

/-- The n-th attempt of the control frame has failed (R109 to R111): m at the failure, t after. -/
def State.controlAttemptFailed (f : ControlFrame) (m t : State) : Prop :=
  let n := f.failures + 1
  t.bus.pendingControl = none ∧
  t.bus.outbound = m.bus.outbound ∧ t.bus.outboundBackoff = m.bus.outboundBackoff ∧
  (n < 8 → t.bus.control = some ⟨f.kind, n⟩ ∧ t.bus.controlBackoff = m.backoffOf n) ∧
  (8 ≤ n → t.bus.control = none ∧ t.bus.controlBackoff = none)

/-- The n-th attempt of the outbound head has failed (R109 to R111): m at the failure, t after. -/
def State.headAttemptFailed (head : OutFrame) (rest : List OutFrame) (m t : State) : Prop :=
  let n := head.failures + 1
  t.bus.control = m.bus.control ∧ t.bus.controlBackoff = m.bus.controlBackoff ∧
  t.bus.pendingControl = m.bus.pendingControl ∧
  (n < 8 → t.bus.outbound = ⟨head.body, n⟩ :: rest ∧ t.bus.outboundBackoff = m.backoffOf n) ∧
  (8 ≤ n → t.bus.outbound = rest ∧ t.bus.outboundBackoff = none)

/-- SEND_FAILED stands at every port that takes it, once the n-th failed attempt was the eighth (R111, R112). -/
def State.toldOfDrop (subject : Subject) (kind : Byte) (n : Nat) (m t : State) : Prop :=
  8 ≤ n → ∀ q : Port, (m.port q).mask[11] = true → (t.port q).noticesLost = false →
    ⟨.sendFailed, subject, m.now, [kind, 0, byteOf n]⟩ ∈ (t.port q).notices

/-- SEND_FAILED after the eighth failed attempt is the one notice raised (R111, R112), and none comes before it. -/
def State.toldOnly (subject : Subject) (kind : Byte) (n : Nat) (m t : State) : Prop :=
  let u := if n < 8 then m else raise .sendFailed subject [kind, 0, byteOf n] m
  t.portA = u.portA ∧ t.portB = u.portB

/-- No frame on the line holds a reservation of the receive queue. -/
def State.noReservation (s : State) : Prop := ∀ f, s.bus.rx = some f → f.mode ≠ .reserved

/-- Nothing differs but the room bus, the Report Processor's reservation and hold-off state, the crystal's count
and the notices. -/
def State.onlyBus (s t : State) : Prop :=
  t = { s with
    clock := { s.clock with ticks := t.clock.ticks }
    bus := t.bus
    report := { s.report with reserved := t.report.reserved, holdOff := t.report.holdOff }
    portA := { s.portA with
      notices := t.portA.notices, noticesLost := t.portA.noticesLost, attentionLow := t.portA.attentionLow }
    portB := { s.portB with
      notices := t.portB.notices, noticesLost := t.portB.noticesLost, attentionLow := t.portB.attentionLow } }

/-- Both ports are offered the notice: at a port that enables its kind and has room it stands last (R190, R191). -/
def State.noticed (n : Notice) (s t : State) : Prop :=
  ∀ q : Port, (s.port q).mask[n.kind.number] = true → (s.port q).notices.length < Config.noticeMax →
    (t.port q).notices = (s.port q).notices ++ [n]

/-- The state with the notice queues of another one: what notices write of a port. -/
def State.withNoticesOf (t s : State) : State :=
  { s with
    portA := { s.portA with
      notices := t.portA.notices, noticesLost := t.portA.noticesLost, attentionLow := t.portA.attentionLow }
    portB := { s.portB with
      notices := t.portB.notices, noticesLost := t.portB.noticesLost, attentionLow := t.portB.attentionLow } }

/-- The head record of the receive queue has left (R115). -/
def State.headGone (s : State) : State :=
  { s with report := { s.report with queue := s.report.queue.tail, headRaised := false } }

/-- A change of firing_state with what the spec gives every such change (R163, R176): state_entered, and off_since
when the heat request goes off. -/
def State.firingAt (new : FiringState) (s : State) : State :=
  let off := (s.firing.state = .requesting ∨ s.firing.state = .firing) ∧ new ≠ .requesting ∧ new ≠ .firing
  { s with firing := { s.firing with
      state := new
      stateEntered := s.now
      offSince := if off then some s.now else s.firing.offSince } }

/-- min_off has elapsed since off_since, or off_since is absent (R163). -/
def State.minOffOver (s : State) : Prop := ∀ t, s.firing.offSince = some t → t + s.taken.minOff ≤ s.now

/-- Some served zone is flow_ready, or bypass_enable is yes and some zone is served, with the dump flag clear
(R164). -/
def State.mayFire (s : State) : Prop :=
  s.firing.dump = false ∧
    ∃ z : Zone, s.firing.picture.served[z] = true ∧
      (s.firing.picture.flowReady[z] = true ∨ s.taken.bypassEnable = true)

/-- What a channel keeps while other channels' movements end and start. -/
def ChannelRecord.settings (c : ChannelRecord) : Option Zone × Bool × Nat × Nat × Nat :=
  (c.zone, c.calibrated, c.fullStroke, c.minPos, c.maxPos)

end Sys2Proof.Machine
end

