-- ==== Sys2Proof/Certificates/Slice0/Obligations.lean ====
section
/-! DEFINITION. The statements for the provers. -/

section
open Sys2Proof Sys2Proof.Machine

/-! ### The machine -/

/-- A step is the command at the front of the queue, on the state with the queue's rest. -/
def Obligations.AStepRunsTheCommandInFront : Prop :=
  ∀ (c : Instr) (rest : List Instr) (s : Machine.State),
    step { s with pending := c :: rest } = exec c { s with pending := rest }

/-- The model's choice (log 1): with no command waiting one period of the crystal passes. The backoff register
then takes its step (R110) and nothing else changes. -/
def Obligations.AnEmptyQueueLetsOneCrystalPeriodPass : Prop :=
  ∀ s : Machine.State, s.pending = [] →
    ∃ v : BitVec 16,
      step s = .next { s with
        clock := { s.clock with ticks := s.clock.ticks + 1 }
        bus := { s.bus with backoffReg := v } } ∧
      v.getLsbD 0 = (s.bus.backoffReg.getLsbD 15 ^^ s.bus.backoffReg.getLsbD 14 ^^ s.bus.backoffReg.getLsbD 12 ^^
        s.bus.backoffReg.getLsbD 3) ∧
      ∀ i : Fin 15, v.getLsbD (i + 1) = s.bus.backoffReg.getLsbD i

/-- The model's choice (log 25): no command ends in a fault or a refusal, and none touches the queue. -/
def Obligations.EveryCommandAnswersANextState : Prop :=
  ∀ (i : Instr) (s : Machine.State), ∃ t, exec i s = .next t ∧ t.pending = s.pending

/-! ### Device reset -/

/-- Everything is as a device reset leaves it, but the commands waiting outside and the model's count of free choices:
every zone record, the Clock, the programmes, stacks, claims and the arbiter, the Demand Unit with its timer; the
contact inputs, the room bus with its line in GAP, the receive queue and the registry; the valve channels, the Firing
Controller with its setpoint and its call picture, the Burner Link with its exchange timer, the ports, and the
parameters at their defaults.
Rests on the model's choices of logs 18 and 19. -/
def Obligations.DeviceResetLeavesEveryBlockAtItsResetValues : Prop :=
  ∀ s : Machine.State, ∃ t, exec .deviceReset s = .next t ∧ t.pending = s.pending ∧
    t = { Machine.State.reset with
      pending := s.pending
      demand := { Machine.State.reset.demand with choices := s.demand.choices } } ∧
    (∀ z : Zone, t.zones[z] =
      { serviceMode := .unused, defaultTarget := 180, primaryUnit := none, baseTarget := 180,
        baseSource := .default, resolvedTarget := 180, resolvedBasis := .base, measured := none,
        measureState := .blind, measureUnit := none, demand := 0, callState := .idle, served := false,
        frostEmergency := false, flowReady := false, valveCount := 0 }) ∧
    t.now = 0 ∧
    t.clock = { ticks := 0, secondsTaken := 0, minute := 0, seconds := 0, timeValid := false, authority := none } ∧
    t.store.free = 512 ∧
    (∀ z : Zone, t.store.lists[z] = [] ∧ t.store.revisions[z] = 0 ∧ t.store.current[z] = none ∧
      t.store.overrides[z] = { hold := none, boost := none, window := false }) ∧
    (∀ c : ClaimIx, t.store.claims[c] = none) ∧
    t.arbiter = { waiting := ⟨none, none, none, none, none⟩, carrying := none, parked := .clock } ∧
    t.demand = {
      loopStart := 0, loopRan := false, heatList := [], lastIssued := Vector.replicate 24 none
      zoneEvents := [], servedRecompute := false, choices := s.demand.choices } ∧
    (∀ z : Zone,
      t.written.contacts[z] =
        { enable := false, polarity := .lowOpen, debounce := 4, openEdgeNotice := false,
          closeEdgeNotice := false, windowDelay := 60 } ∧
      t.contacts.inputs[z] = { stableState := .isClosed, run := 0, openTimer := none, windowAsserted := false }) ∧
    t.contacts.samples = 0 ∧ t.contacts.pendingOrders = [] ∧
    t.bus = {
      line := .gap, gapSince := 0, errState := .normal, stuckSince := 0, highSince := 0, syncing := false
      errorCount := 0, rx := none, lastAck := .undriven, outbound := [], control := none, pendingControl := none
      attempt := none, deferral := none, controlBackoff := none, outboundBackoff := none, backoffReg := 0x5A3C } ∧
    t.report = {
      queue := [], reserved := false, headRaised := false, holdOff := .flowing, storeOrders := []
      registry := Vector.replicate 32 none } ∧
    (∀ c : Channel, t.channel c =
      { zone := none, state := .unassigned, calibrated := false, position := none, fullStroke := 90, minPos := 0
        maxPos := 100, lastMoved := none, openConfirmed := false, inProgress := none, queue := []
        urgent := none }) ∧
    (∀ i : Slot, t.valves.slots[i] = none ∧ t.driveOpen i = false ∧ t.driveClose i = false) ∧
    (∀ c : Channel, t.selectOut c = false) ∧ t.valves.waiting = [] ∧
    t.firing = {
      state := .off, stateEntered := 0, setpoint := 35
      picture := {
        list := [], served := Vector.replicate 16 false, demand := Vector.replicate 16 0
        frost := Vector.replicate 16 false, flowReady := Vector.replicate 16 false }
      runoutSet := [], runoutTimer := none, offSince := none, lockoutPumpTimer := none, dump := false
      frostSkip := false, resetsToday := 0, pendingReset := false } ∧
    t.link = {
      nextExchange := 65536, up := true, missCount := 0, lastStatus := none, exchange := .none
      demand := none, bldir := .towardsPart, rx := .quiet } ∧
    (∀ p : Port, t.port p =
      { request := .idle, slot := none, reply := none, resetPending := false, discard := false, notices := []
        mask := Vector.replicate 22 true, noticesLost := false, fault := none, otherSeen := false, fetch := none
        attentionLow := false } ∧ ∀ n, (t.port p).dataOut n = none) ∧
    t.written = t.taken ∧ t.written.frostFloor = 50 ∧ t.written.maxTarget = 280 ∧ t.written.claimLapse = 30 ∧
    t.written.propBand = 20 ∧ t.written.callOn = 20 ∧ t.written.callOff = 5 ∧ t.written.loopPeriod = 30 ∧
    t.written.deadband = 5 ∧ t.written.blindOpening = 30 ∧ t.written.servedLimit = 16 ∧
    t.written.openThreshold = 20 ∧ t.written.exerciseEnable = true ∧ t.written.minFlow = 35 ∧
    t.written.maxFlow = 70 ∧ t.written.runoutTime = 120 ∧ t.written.minOff = 180 ∧
    t.written.bypassEnable = false ∧ t.written.dumpThreshold = 88 ∧ t.written.linkPeriod = 2 ∧
    t.written.linkMisses = 3 ∧ t.written.staleAge = 300 ∧ t.written.lostAge = 900 ∧ t.written.plausLow = -100 ∧
    t.written.plausHigh = 450 ∧ t.written.holdoffLevel = 12 ∧ t.written.resumeLevel = 4 ∧
    t.written.ownAddress = 0x10 ∧ t.written.deferralLimit = 250 ∧ t.written.backoffCap = 4

/-! ### Transactions of a port -/

/-- A transaction whose first byte is neither 0xA1 nor 0xA2 is void: a BAD_FRAME refusal with kind and subject none
at its port, and nothing else changes.
A frame that fails a check: answered at once by an IDLE port, dropped as BUSY by any other; one that fails
only at its kind also sets the other port's other_seen.
A good frame other than PORT_RESET that finds a request outstanding is dropped: a BUSY refusal with its
kind, and nothing else but the other port's other_seen. So is each of the 28 requests as a command of its own, and a
PORT_RESET while one is pending.
Rests on the model's choices of log 36. -/
def Obligations.RefusedTransactionsAreAnsweredOrDropped : Prop :=
  (∀ (p : Port) (first : Byte) (s : Machine.State), first ≠ 0xA1 → first ≠ 0xA2 →
    exec (.voidTransaction ⟨p, first⟩) s =
      .next (s.modPort p fun ps => { ps with fault := faultAfter ps.fault none .badFrame none s.now })) ∧
  (∀ (p : Port) (bytes : List Byte) (s : Machine.State),
    (∀ kind, judgeFrame bytes = .badFrame kind →
      exec (.badFrame p (0xA1 :: bytes)) s = .next (s.modPort p fun ps =>
        if ps.request = .idle then
          { ps with request := .replyReady, reply := some ⟨kind, .badFrame, []⟩,
                    fault := faultAfter ps.fault kind .badFrame none s.now }
        else { ps with fault := faultAfter ps.fault none .busy none s.now })) ∧
    ∀ kind, judgeFrame bytes = .unknownKind kind →
      exec (.badFrame p (0xA1 :: bytes)) s =
        .next ((s.modPort p.other fun ps => { ps with otherSeen := true }).modPort p fun ps =>
          if ps.request = .idle then
            { ps with request := .replyReady, reply := some ⟨some kind, .unknownKind, []⟩,
                      fault := faultAfter ps.fault (some kind) .unknownKind none s.now }
          else { ps with fault := faultAfter ps.fault none .busy none s.now })) ∧
  (∀ (p : Port) (r : HostReq) (s : Machine.State), (s.port p).request ≠ .idle →
    r ≠ .portReset ∨ (s.port p).resetPending = true →
    let dropped := (s.modPort p.other fun ps => { ps with otherSeen := true }).modPort p fun ps =>
      { ps with fault := faultAfter ps.fault (some r.kind) .busy none s.now }
    exec (requestCommand p r) s = .next dropped ∧ (r.fits = true → exec (.badFrame p r.frame) s = .next dropped))

/-- The transaction byte: 0xA1 begins a REQUEST, whose frame is the bytes after it, 0xA2 a FETCH, any other a void
transaction.
The checks of a REQUEST frame in their order: completeness, length, check byte, kind, body size. -/
def Obligations.RequestFramesAreJudgedInOrder : Prop :=
  (judgeTransaction [] = .nothing ∧ ∀ (first : Byte) (bytes : List Byte),
    (first = 0xA1 → judgeTransaction (first :: bytes) = .request (judgeFrame bytes)) ∧
    (first = 0xA2 → judgeTransaction (first :: bytes) = .fetch) ∧
    (first ≠ 0xA1 → first ≠ 0xA2 → judgeTransaction (first :: bytes) = .void)) ∧
  (∀ bytes : List Byte, bytes.length < 3 → judgeFrame bytes = .badFrame bytes.head?) ∧
  (∀ (kind len crc : Byte) (body : List Byte), body.length ≠ len.toNat →
    judgeFrame (kind :: len :: (body ++ [crc])) = .badFrame (some kind)) ∧
  (∀ (kind len crc : Byte) (body : List Byte), body.length = len.toNat →
    (crc ≠ crc8 (kind :: len :: body) → judgeFrame (kind :: len :: (body ++ [crc])) = .badFrame (some kind)) ∧
    (crc = crc8 (kind :: len :: body) → (kind = 0 ∨ 29 < kind.toNat) →
      judgeFrame (kind :: len :: (body ++ [crc])) = .unknownKind kind) ∧
    (crc = crc8 (kind :: len :: body) → kind ≠ 0 → kind.toNat ≤ 29 → parseBody kind body = none →
      judgeFrame (kind :: len :: (body ++ [crc])) = .badFrame (some kind)) ∧
    ∀ r, crc = crc8 (kind :: len :: body) → kind ≠ 0 → kind.toNat ≤ 29 → parseBody kind body = some r →
      judgeFrame (kind :: len :: (body ++ [crc])) = .good r)

/-- Every request whose body fits is read from its frame, which begins with the transaction byte, as it was written,
with every field. -/
def Obligations.EveryRequestFrameIsReadAsWritten : Prop :=
  ∀ r : HostReq, r.fits = true →
    r.frame.head? = some 0xA1 ∧ judgeTransaction r.frame = .request (.good r)

/-- A FETCH chooses the reply, else the oldest notice, else nothing; its header carries notices_lost and the
number of other notices, and notices_lost is cleared.
The port then clocks out the seven bytes of the header, the bytes of the item and fill bytes 0x00; fill bytes alone
once a port reset has taken the item away, and through a void transaction; outside a FETCH its output is released.
The end of a FETCH: the item leaves only if the header was clocked out whole; otherwise it stays and a
notices_lost the header was to carry is set again; an item that a port reset took away leaves nothing to do.
Rests on the model's choices of logs 11, 20 and 24. -/
def Obligations.AFetchTakesItsItemByItsHeader : Prop :=
  (∀ (p : Port) (s : Machine.State), (s.port p).fetch = none →
    (∀ r, (s.port p).reply = some r →
      exec (.fetch p) s = .next (s.modPort p fun ps =>
        { ps with fetch := some ⟨.reply r, ps.noticesLost, ps.notices.length, false⟩, noticesLost := false })) ∧
    (∀ n rest, (s.port p).reply = none → (s.port p).notices = n :: rest →
      exec (.fetch p) s = .next (s.modPort p fun ps =>
        { ps with fetch := some ⟨.notice n, ps.noticesLost, rest.length, false⟩, noticesLost := false })) ∧
    ((s.port p).reply = none → (s.port p).notices = [] →
      exec (.fetch p) s = .next (s.modPort p fun ps =>
        { ps with fetch := some ⟨.nothing, ps.noticesLost, 0, false⟩, noticesLost := false }))) ∧
  (∀ ps : PortState,
    (ps.fetch = none → ∀ n, ps.dataOut n = none) ∧
    (∀ f, ps.fetch = some f →
      f.header.length = 7 ∧ f.header ++ f.item.bytes = f.clocked ∧
      (f.gone = false → ∀ n, ps.dataOut n = some (f.clocked[n]?.getD 0x00)) ∧
      (f.gone = true → ∀ n, ps.dataOut n = some 0x00)) ∧
    ∀ (first : Byte) (n : Nat), (first = 0xA2 → ps.clockedOut first n = ps.dataOut n) ∧
      (first ≠ 0xA1 → first ≠ 0xA2 → ps.clockedOut first n = some 0x00)) ∧
  (∀ (p : Port) (f : FetchInProgress) (s : Machine.State), (s.port p).fetch = some f →
    (f.gone = true → ∀ whole,
      exec (.fetchTransactionEnd p whole) s = .next (s.modPort p fun ps => { ps with fetch := none })) ∧
    (f.gone = false → (∀ r, f.item = .reply r → (s.port p).request = .replyReady) →
      exec (.fetchTransactionEnd p false) s = .next (s.modPort p fun ps =>
        { ps with fetch := none, noticesLost := ps.noticesLost || f.lost }) ∧
      exec (.fetchTransactionEnd p true) s = .next (s.modPort p fun ps =>
        match f.item with
        | .reply _ => { ps with fetch := none, reply := none, request := .idle, slot := none }
        | .notice _ => { ps with fetch := none, notices := ps.notices.tail }
        | .nothing => { ps with fetch := none })))

/-! ### Requests answered when they are taken -/

/-- IDENTIFY and READ_TIME, with their replies byte for byte.
READ_ZONE, UNIT_READ, VALVE_READ, FIRING_READ and READ_CONFIG reply with the record they name, byte for byte, or
RANGE, and change nothing but what the port records for every request.
Rests on the model's choices of logs 10, 11, 12, 24, 32, 42, 47, 49, 51 and 52. -/
def Obligations.ReadsReportTheRecordsAsTheyStand : Prop :=
  (∀ (p : Port) (s : Machine.State), s.portIdle p →
    exec (.identify p) s = .next (s.afterReply p .identify .ok
      [0x0C, 0x4E, 0x24, 0x16, 3, if p = .A then 0 else 1, if (s.port p).otherSeen then 1 else 0]) ∧
    exec (.readTime p) s = .next (s.afterReply p .readTime .ok
      (halfOf s.clock.minute ++ [byteOf s.clock.seconds, byteOf (s.clock.minute / 1440)] ++
        halfOf (s.clock.minute % 1440) ++ [yesNo s.clock.timeValid, portOrNone s.clock.authority]))) ∧
  (∀ (p : Port) (b : Byte) (s : Machine.State), s.portIdle p →
    (∀ z : Zone, b.toNat = z.val →
      exec (.readZone p b) s = .next (s.afterReply p (.readZone b) .ok (s.zoneBytes z))) ∧
    (16 ≤ b.toNat → exec (.readZone p b) s = .next (s.afterReply p (.readZone b) .range [])) ∧
    (∀ u : UnitIx, b.toNat = u.val →
      exec (.unitRead p b) s = .next (s.afterReply p (.unitRead b) .ok (s.unitBytes u))) ∧
    (32 ≤ b.toNat → exec (.unitRead p b) s = .next (s.afterReply p (.unitRead b) .range [])) ∧
    (∀ c : Channel, b.toNat = c.val →
      exec (.valveRead p b) s = .next (s.afterReply p (.valveRead b) .ok (s.channelBytes c))) ∧
    (24 ≤ b.toNat → exec (.valveRead p b) s = .next (s.afterReply p (.valveRead b) .range [])) ∧
    exec (.firingRead p) s = .next (s.afterReply p .firingRead .ok s.firingBytes) ∧
    exec (.readConfig p) s = .next (s.afterReply p .readConfig .ok s.configBytes))

/-- CLEAR_LOCKOUT: in LOCKOUT a pending reset is set and counted, at most three a day; elsewhere STATE. -/
def Obligations.ClearLockoutAsksForAReset : Prop :=
  ∀ (p : Port) (s : Machine.State), s.portIdle p →
    (s.firing.state = .lockout → s.firing.resetsToday < 3 →
      exec (.clearLockout p) s = .next (State.afterReply p .clearLockout .ok
        [BitVec.ofNat 8 (s.firing.resetsToday + 1)]
        { s with firing := { s.firing with pendingReset := true, resetsToday := s.firing.resetsToday + 1 } })) ∧
    (s.firing.state = .lockout → 3 ≤ s.firing.resetsToday →
      exec (.clearLockout p) s = .next (s.afterReply p .clearLockout .limit [])) ∧
    (s.firing.state ≠ .lockout → exec (.clearLockout p) s = .next (s.afterReply p .clearLockout .state []))

/-- NOTICE_MASK: the mask of every kind named is written, the others stay; with purge the queue keeps the enabled
kinds, and a notice chosen by a FETCH still running; the reply carries the mask and the count. A kind above 21, a
kind named twice, a value or a purge other than yes or no, no entry or more than 22 give RANGE.
FAULT_READ: the record as it stands is reported byte for byte, and emptied with clear yes; another clear gives RANGE,
which is itself recorded.
Rests on the model's choices of logs 11, 12 and 24. -/
def Obligations.NoticeMaskAndFaultReadAnswerForTheirPort : Prop :=
  (∀ (p : Port) (entries : List MaskEntry) (purge : Byte) (s : Machine.State), s.portIdle p →
    (∀ (l : List (Fin 22 × Bool)) (pg : Bool), l ≠ [] → (l.map (·.1)).Nodup →
      entries = l.map (fun x => ⟨BitVec.ofNat 8 x.1.val, encFlag x.2⟩) → purge = encFlag pg →
      ∃ mask : Vector Bool 22,
        (∀ x ∈ l, mask[x.1] = x.2) ∧ (∀ k : Fin 22, (∀ x ∈ l, x.1 ≠ k) → mask[k] = (s.port p).mask[k]) ∧
        let keep := fun n : Notice => mask[n.kind.number]
        let purged := match (s.port p).fetch with
          | some ⟨.notice _, _, _, false⟩ => (s.port p).notices.take 1 ++ ((s.port p).notices.drop 1).filter keep
          | _ => (s.port p).notices.filter keep
        let notices := if pg then purged else (s.port p).notices
        exec (.noticeMask p entries purge) s =
          .next (State.afterReply p (.noticeMask entries purge) .ok
            (mask.toList.map encFlag ++ [BitVec.ofNat 8 notices.length])
            (s.modPort p fun ps => { ps with mask := mask, notices := notices }))) ∧
    (entries.length = 0 ∨ 22 < entries.length ∨ 2 ≤ purge.toNat ∨ ¬ (entries.map (·.kind)).Nodup ∨
        (∃ e ∈ entries, 22 ≤ e.kind.toNat ∨ 2 ≤ e.enabled.toNat) →
      exec (.noticeMask p entries purge) s =
        .next (s.afterReply p (.noticeMask entries purge) .range []))) ∧
  (∀ (p : Port) (clear : Byte) (s : Machine.State), s.portIdle p →
    (clear = 0 → exec (.faultRead p clear) s = .next (s.afterReply p (.faultRead clear) .ok (s.faultBytes p))) ∧
    (clear = 1 → exec (.faultRead p clear) s =
      .next (State.afterReply p (.faultRead clear) .ok (s.faultBytes p)
        (s.modPort p fun ps => { ps with fault := none }))) ∧
    (2 ≤ clear.toNat → exec (.faultRead p clear) s = .next (s.afterReply p (.faultRead clear) .range [])))

/-! ### Claims and the time authority -/

/-- CLAIM: a free claim is taken, the port's own is kept, the other port's is refused with its record. A count of 1
does not run out while the CLAIM is carried out, and at the completion the count restarts.
Rests on the model's choices of logs 4 and 6. -/
def Obligations.ClaimIsTakenKeptOrRefused : Prop :=
  (∀ (p : Port) (b : Byte) (s : Machine.State), s.ready p →
    (∀ c : ClaimIx, b.toNat = c.val →
      (s.store.claims[c] = none →
        exec (.claim p b) s = .next (State.granted p (.claim b) .ok ([b] ++ be16 (BitVec.ofNat 16 s.written.claimLapse))
          (some c) (s.setClaim c (some ⟨p, s.written.claimLapse, false⟩)))) ∧
      (s.heldBy c p →
        exec (.claim p b) s = .next (s.granted p (.claim b) .ok ([b] ++ be16 (BitVec.ofNat 16 s.written.claimLapse))
          (some c))) ∧
      ∀ h, s.store.claims[c] = some h → h.holder ≠ p →
        exec (.claim p b) s = .next (s.granted p (.claim b) .heldByOther
          ([b] ++ be16 (BitVec.ofNat 16 h.remaining) ++ [encFlag h.frozen]) none)) ∧
    (17 ≤ b.toNat → exec (.claim p b) s = .next (s.granted p (.claim b) .range [] none))) ∧
  ∀ (p : Port) (b : Byte) (c : ClaimIx) (h : Held) (body : List Byte) (s : Machine.State), s.portIdle p →
    b.toNat = c.val → s.store.claims[c] = some h → h.holder = p → s.clock.seconds < 59 →
    ∃ m t, exec .secondEvent (s.granted p (.claim b) .ok body (some c)) = .next m ∧
      exec .storeRequestComplete m = .next t ∧
      m.store.claims[c] = some { h with remaining :=
        if h.frozen = true ∨ h.remaining ≤ 1 then h.remaining else h.remaining - 1 } ∧
      t.store.claims[c] = some ⟨p, s.written.claimLapse, false⟩ ∧
      (t.port p).reply = some ⟨some 8, .ok, body⟩

/-- RELEASE, granted at once, and whenever it is granted: the holder's claim becomes free, any other is refused
with NO_CLAIM, a target out of range with RANGE; nothing else changes and no notice is raised. -/
def Obligations.ReleaseGivesUpAClaim : Prop :=
  (∀ (p : Port) (b : Byte) (s : Machine.State), s.ready p →
    (∀ c : ClaimIx, b.toNat = c.val →
      (s.heldBy c p → exec (.release p b) s = .next (State.granted p (.release b) .ok [] none (s.setClaim c none))) ∧
      (¬ s.heldBy c p → exec (.release p b) s = .next (s.granted p (.release b) .noClaim [] none))) ∧
    (17 ≤ b.toNat → exec (.release p b) s = .next (s.granted p (.release b) .range [] none))) ∧
  ∀ (p : Port) (b : Byte) (s : Machine.State),
    (∀ c : ClaimIx, b.toNat = c.val →
      (s.heldBy c p → carryOut (.host p (.release b)) s = (s.setClaim c none, .reply .ok [] none)) ∧
      (¬ s.heldBy c p → carryOut (.host p (.release b)) s = (s, .reply .noClaim [] none))) ∧
    (17 ≤ b.toNat → carryOut (.host p (.release b)) s = (s, .reply .range [] none))

/-- RELEASE_TIME, granted at once, and whenever it is granted: the holder's authority becomes none; otherwise
NOT_AUTHORITY. Nothing else changes and no notice is raised. -/
def Obligations.ReleaseTimeGivesUpTheAuthority : Prop :=
  (∀ (p : Port) (s : Machine.State), s.ready p →
    (s.clock.authority = some p →
      exec (.releaseTime p) s =
        .next (State.granted p .releaseTime .ok [] none { s with clock := { s.clock with authority := none } })) ∧
    (s.clock.authority ≠ some p →
      exec (.releaseTime p) s = .next (s.granted p .releaseTime .notAuthority [] none))) ∧
  ∀ (p : Port) (s : Machine.State),
    (s.clock.authority = some p →
      carryOut (.host p .releaseTime) s =
        ({ s with clock := { s.clock with authority := none } }, .reply .ok [] none)) ∧
    (s.clock.authority ≠ some p → carryOut (.host p .releaseTime) s = (s, .reply .notAuthority [] none))

/-- A taken SET_TIME: the time, the authority, the current point and base of every zone, the UNTIL_NEXT_POINT
holds that a transition ends, each with its OVERRIDE_EXPIRED of cause POINT, and no other OVERRIDE_EXPIRED; a zone whose
base or stack changes is resolved, the others keep their resolution; the TIME_SET notice after all others of the
request; no list, claim or count changes.
Rests on the model's choices of log 4. -/
def Obligations.SetTimeSetsTheClockAndEveryPoint : Prop :=
  ∀ (p : Port) (minute : Half) (seconds : Byte) (s : Machine.State), s.ready p →
    (minute.toNat ≤ 10079 → seconds.toNat ≤ 59 → s.clock.authority ≠ some p.other →
      ∃ m, exec (.setTime p minute seconds) s = .next m ∧
        m.arbiter = (s.granted p (.setTime minute seconds) .ok [] none).arbiter ∧
        m.clock = { s.clock with
          minute := minute.toNat, seconds := seconds.toNat, timeValid := true, authority := some p } ∧
        (∀ z : Zone, m.pointAt z) ∧
        (∀ z : Zone,
          if m.store.current[z] ≠ s.store.current[z] ∧ s.store.overrides[z].hold.any (·.holdEnd = .untilNextPoint) then
            m.store.overrides[z] = { s.store.overrides[z] with hold := none }
          else m.store.overrides[z] = s.store.overrides[z]) ∧
        (∀ z : Zone, State.resolvedOnChange s m z) ∧
        (∀ q : Port, (s.port q).mask[2] = true → (m.port q).noticesLost = false →
          (m.port q).queued .overrideExpired = (s.port q).queued .overrideExpired ++
            allZones.flatMap fun z => s.expiredByPoint m z) ∧
        m.store = { s.store with current := m.store.current, overrides := m.store.overrides } ∧
        State.onlyStoreAndTargets { s.inFlight p (.setTime minute seconds) with clock := m.clock } m ∧
        ∀ q, (s.port q).mask[21] = true → (m.port q).noticesLost = false →
          ∃ others, (m.port q).notices = (s.port q).notices ++ others ++ [⟨.timeSet, .port p, s.now, []⟩] ∧
            ((∀ z : Zone, m.zones[z] = s.zones[z] ∧ m.store.overrides[z] = s.store.overrides[z]) → others = [])) ∧
    (minute.toNat ≤ 10079 → seconds.toNat ≤ 59 → s.clock.authority = some p.other →
      exec (.setTime p minute seconds) s = .next (s.granted p (.setTime minute seconds) .notAuthority [] none)) ∧
    (10079 < minute.toNat ∨ 59 < seconds.toNat →
      exec (.setTime p minute seconds) s = .next (s.granted p (.setTime minute seconds) .range [] none))

/-! ### Resolution (R57 to R61) -/

/-- Resolution, step by step as its table gives it; its result lies between the limits; the zone record takes
it; and after every command every resolved_target lies between frost_floor and max_target, if it did before. -/
def Obligations.ResolutionFollowsItsTable : Prop :=
  (∀ (mode : ServiceMode) (base floor max : Int) (st : Stack), floor ≤ max →
    let r := resolve mode base st floor max
    let held := match st.hold with
      | some h => (h.target, Basis.hold)
      | none => (base, Basis.base)
    let boosted := match st.boost with
      | some b => (held.1 + b.delta, Basis.boost)
      | none => held
    (st.window = true → r = (floor, .window)) ∧
    (st.window = false → mode = .off → r = (floor, .floor)) ∧
    (st.window = false → mode ≠ .off →
      (boosted.1 < floor → r = (floor, .floor)) ∧
      (max < boosted.1 → r = (max, boosted.2)) ∧
      (floor ≤ boosted.1 → boosted.1 ≤ max → r = boosted)) ∧
    floor ≤ r.1 ∧ r.1 ≤ max) ∧
  (∀ (force : Bool) (z : Zone) (s : Machine.State), (settle force z s).resolvedAt z) ∧
  ∀ (i : Instr) (s t : Machine.State), s.targetsSound → exec i s = .next t → t.targetsSound

/-- What a resolution sets off: nothing when neither value changes; else a TARGET_CHANGED notice offered to both
ports and, outside UNUSED, an ANNOUNCE; a zone event when the target changes. Beside these it writes the zone's
two resolved fields only. Of a zone that leaves UNUSED the ANNOUNCE is queued whether a value changes or not.
Rests on the model's choices of log 28. -/
def Obligations.AResolutionTellsOfItsOutcome : Prop :=
  ∀ (z : Zone) (s : Machine.State),
    let t := settle false z s
    let changed := t.zones[z].resolvedTarget ≠ s.zones[z].resolvedTarget ∨
      t.zones[z].resolvedBasis ≠ s.zones[z].resolvedBasis
    State.onlyStoreAndTargets s t ∧ t.store = s.store ∧ t.arbiter = s.arbiter ∧
    (∀ y : Zone, y ≠ z → t.zones[y] = s.zones[y]) ∧
    t.zones[z] = { s.zones[z] with
      resolvedTarget := t.zones[z].resolvedTarget, resolvedBasis := t.zones[z].resolvedBasis } ∧
    (¬ changed → t = s) ∧
    (changed → s.bus.outbound = [] →
      t.bus.outbound = (if s.zones[z].serviceMode = .unused then []
        else [⟨.announce z t.zones[z].resolvedTarget t.zones[z].resolvedBasis, 0⟩]) ∧
      ∀ p, (s.port p).mask[0] = true → (s.port p).notices.length < 32 →
        (t.port p).notices = (s.port p).notices ++
          [⟨.targetChanged, .zone z, s.now, encTemp t.zones[z].resolvedTarget ++ [t.zones[z].resolvedBasis.code]⟩]) ∧
    (s.demand.loopRan = true →
      (z ∈ t.demand.zoneEvents ↔
        z ∈ s.demand.zoneEvents ∨ t.zones[z].resolvedTarget ≠ s.zones[z].resolvedTarget)) ∧
    (s.demand.loopRan = false → t.demand.zoneEvents = s.demand.zoneEvents) ∧
    let forced := settle true z s
    forced.zones = t.zones ∧ forced.store = t.store ∧ forced.demand = t.demand ∧
    (s.zones[z].serviceMode = .unused → forced = t) ∧
    (s.zones[z].serviceMode ≠ .unused → s.bus.outbound = [] →
      forced.bus.outbound = [⟨.announce z t.zones[z].resolvedTarget t.zones[z].resolvedBasis, 0⟩] ∧
      (¬ changed → forced.portA = s.portA ∧ forced.portB = s.portB))

/-! ### Zone and schedule requests -/

/-- SET_ZONE by the claim's holder: the three fields, the base when its source is DEFAULT, the resolution, the
measurement chosen anew when primary_unit changes, an ANNOUNCE of a zone that leaves UNUSED; the claim is frozen until
the completion.
Rests on the model's choices of log 4. -/
def Obligations.SetZoneWritesTheZone : Prop :=
  ∀ (p : Port) (b mode : Byte) (target : Half) (primary : Byte) (z : Zone) (s : Machine.State),
    s.ready p → b.toNat = z.val → s.heldBy (zoneClaim z) p →
    let r := HostReq.setZone b mode target primary
    let f := State.frozenFor (zoneClaim z) s
    (∀ (sm : ServiceMode) (u : Option UnitIx), serviceMode? mode = some sm → finOrNone? 32 primary = some u →
      s.written.frostFloor ≤ target.toInt → target.toInt ≤ s.written.maxTarget →
      (∀ i, u = some i → (s.report.registry[i]).isSome = true) →
      ∃ m, exec (.setZone p b mode target primary) s = .next m ∧
        m.arbiter = (f.granted p r .ok [] (some (zoneClaim z))).arbiter ∧ m.store = f.store ∧
        m.zones[z] = { s.zones[z] with
          serviceMode := sm
          defaultTarget := target.toInt
          primaryUnit := u
          baseTarget := if s.zones[z].baseSource = .default then target.toInt else s.zones[z].baseTarget
          resolvedTarget := m.zones[z].resolvedTarget
          resolvedBasis := m.zones[z].resolvedBasis
          measured := m.zones[z].measured
          measureState := m.zones[z].measureState
          measureUnit := m.zones[z].measureUnit } ∧
        m.resolvedAt z ∧
        (u = s.zones[z].primaryUnit → m.zones[z].measured = s.zones[z].measured ∧
          m.zones[z].measureState = s.zones[z].measureState ∧ m.zones[z].measureUnit = s.zones[z].measureUnit) ∧
        (u ≠ s.zones[z].primaryUnit →
          (m.zones[z].measured, m.zones[z].measureState, m.zones[z].measureUnit) = measurement z m) ∧
        (s.zones[z].serviceMode = .unused → sm ≠ .unused → s.bus.outbound = [] →
          m.bus.outbound = [⟨.announce z m.zones[z].resolvedTarget m.zones[z].resolvedBasis, 0⟩]) ∧
        (∀ y : Zone, y ≠ z → m.zones[y] = s.zones[y]) ∧
        (s.demand.loopRan = true → sm ≠ s.zones[z].serviceMode → z ∈ m.demand.zoneEvents) ∧
        m.clock = s.clock ∧ m.written = s.written ∧ m.taken = s.taken ∧ m.contacts = s.contacts ∧
        m.report = s.report ∧ m.valves = s.valves ∧ m.firing = s.firing ∧ m.link = s.link ∧
        m.demand = { s.demand with zoneEvents := m.demand.zoneEvents } ∧
        m.bus = { s.bus with
          outbound := m.bus.outbound, outboundBackoff := m.bus.outboundBackoff, deferral := m.bus.deferral }) ∧
    (serviceMode? mode = none ∨ target.toInt < s.written.frostFloor ∨ s.written.maxTarget < target.toInt ∨
        finOrNone? 32 primary = none →
      exec (.setZone p b mode target primary) s = .next (f.granted p r .range [] (some (zoneClaim z)))) ∧
    ∀ (sm : ServiceMode) (i : UnitIx), serviceMode? mode = some sm → finOrNone? 32 primary = some (some i) →
      s.written.frostFloor ≤ target.toInt → target.toInt ≤ s.written.maxTarget → s.report.registry[i] = none →
      exec (.setZone p b mode target primary) s = .next (f.granted p r .notFound [] (some (zoneClaim z)))

/-- SCHEDULE_INSERT by the claim's holder: the point placed by its minute, or the first refusal that applies.
SCHEDULE_DELETE by the claim's holder: the point of the minute leaves the list; none there is NOT_FOUND.
Rests on the model's choices of log 4. -/
def Obligations.ScheduleInsertAndDeleteChangeOnePoint : Prop :=
  (∀ (p : Port) (b : Byte) (minute : Half) (kind : Byte) (target : Half) (z : Zone) (s : Machine.State),
    s.ready p → b.toNat = z.val → s.heldBy (zoneClaim z) p →
    let r := HostReq.scheduleInsert b minute kind target
    let f := State.frozenFor (zoneClaim z) s
    let l := s.store.lists[z]
    let refused := fun st => exec (.scheduleInsert p b minute kind target) s =
      .next (f.granted p r st [] (some (zoneClaim z)))
    (10079 < minute.toNat → refused .range) ∧
    (minute.toNat ≤ 10079 →
      (2 ≤ kind.toNat → refused .range) ∧
      (kind = 0 → (target.toInt < s.written.frostFloor ∨ s.written.maxTarget < target.toInt) → refused .range) ∧
      ∀ k : PointKind,
        (kind = 0 ∧ s.written.frostFloor ≤ target.toInt ∧ target.toInt ≤ s.written.maxTarget ∧
            k = .target target.toInt) ∨ (kind = 1 ∧ k = .setbackToDefault) →
        ((∃ q ∈ l, q.minute = minute.toNat) → refused .duplicateTime) ∧
        ((∀ q ∈ l, q.minute ≠ minute.toNat) →
          (64 ≤ l.length → refused .listFull) ∧
          (l.length < 64 → s.store.free = 0 → refused .poolFull) ∧
          (l.length < 64 → 0 < s.store.free →
            ∃ m, exec (.scheduleInsert p b minute kind target) s = .next m ∧
              State.editedBy p r z (insertPoint ⟨minute.toNat, k⟩ l) s m ∧
              m.store.lists[z].length = l.length + 1 ∧
              ∀ q, q ∈ m.store.lists[z] ↔ q = ⟨minute.toNat, k⟩ ∨ q ∈ l)))) ∧
  (∀ (p : Port) (b : Byte) (minute : Half) (z : Zone) (s : Machine.State),
    s.ready p → b.toNat = z.val → s.heldBy (zoneClaim z) p →
    let r := HostReq.scheduleDelete b minute
    let f := State.frozenFor (zoneClaim z) s
    let l := s.store.lists[z]
    (minute.toNat ≤ 10079 → (∃ q ∈ l, q.minute = minute.toNat) →
      ∃ m, exec (.scheduleDelete p b minute) s = .next m ∧
        State.editedBy p r z (l.filter fun q => q.minute ≠ minute.toNat) s m) ∧
    (minute.toNat ≤ 10079 → (∀ q ∈ l, q.minute ≠ minute.toNat) →
      exec (.scheduleDelete p b minute) s = .next (f.granted p r .notFound [] (some (zoneClaim z)))) ∧
    (10079 < minute.toNat →
      exec (.scheduleDelete p b minute) s = .next (f.granted p r .range [] (some (zoneClaim z)))))

/-- SCHEDULE_LOAD by the claim's holder: the points, each read from its 24 bits (bits 23 to 10 the minute, bit 9 the
kind, bits 8 to 0 the target in tenths less 30), each good and no minute twice, replace the list in
increasing minute, if the pool has room for them; else the first refusal, with what it carries.
SCHEDULE_READ reports a part of the list, each point in the same 24 bits, and the current point, and changes nothing
but what the port records.
Rests on the model's choices of logs 4, 11, 12 and 22. -/
def Obligations.ScheduleListsAreReplacedAndReported : Prop :=
  (∀ (p : Port) (b : Byte) (points : List (BitVec 24)) (z : Zone) (s : Machine.State),
    s.ready p → b.toNat = z.val → s.heldBy (zoneClaim z) p →
    let r := HostReq.scheduleLoad b points
    let f := State.frozenFor (zoneClaim z) s
    let read := pointRead s.written.frostFloor s.written.maxTarget
    let refused := fun st body => exec (.scheduleLoad p b points) s =
      .next (f.granted p r st body (some (zoneClaim z)))
    (64 < points.length → refused .range []) ∧
    (points.length ≤ 64 →
      (∀ n, (h : n < points.length) → read points[n] = none →
          (∀ k, (hk : k < n) → read (points[k]'(by omega)) ≠ none) →
        refused .range [BitVec.ofNat 8 n]) ∧
      ∀ l : List Point, points.map read = l.map some →
        (∀ n, (h : n < l.length) → (∃ k, ∃ hk : k < n, (l[k]'(by omega)).minute = l[n].minute) →
            ((l.take n).map (·.minute)).Nodup → refused .duplicateTime [BitVec.ofNat 8 n]) ∧
        ((l.map (·.minute)).Nodup → s.store.free + s.store.lists[z].length < l.length →
          refused .poolFull (be16 (BitVec.ofNat 16 s.store.free) ++ [BitVec.ofNat 8 s.store.lists[z].length])) ∧
        ((l.map (·.minute)).Nodup → l.length ≤ s.store.free + s.store.lists[z].length →
          ∃ m, exec (.scheduleLoad p b points) s = .next m ∧ State.editedBy p r z (sortPoints l) s m ∧
            m.store.lists[z].Pairwise (fun a c => a.minute < c.minute) ∧
            m.store.lists[z].length = l.length ∧ ∀ q, q ∈ m.store.lists[z] ↔ q ∈ l))) ∧
  (∀ (p : Port) (b start : Byte) (s : Machine.State), s.ready p →
    (∀ z : Zone, b.toNat = z.val → start.toNat ≤ 63 →
      exec (.scheduleRead p b start) s = .next (s.granted p (.scheduleRead b start) .ok
        ([b, BitVec.ofNat 8 s.store.lists[z].length] ++ be16 (BitVec.ofNat 16 s.store.free) ++
          [s.store.revisions[z]] ++ s.currentPointBytes z ++
          membersOf (((s.store.lists[z].drop start.toNat).take 16).map Point.recordBytes)) none)) ∧
    (16 ≤ b.toNat ∨ 64 ≤ start.toNat →
      exec (.scheduleRead p b start) s = .next (s.granted p (.scheduleRead b start) .range [] none)))

/-- SET_ZONE, SCHEDULE_INSERT, SCHEDULE_DELETE, SCHEDULE_LOAD and CONFIGURE: without their claim NO_CLAIM, and no
claim record is touched; the first four with a zone out of range RANGE, before any claim check.
Rests on the model's choices of log 4. -/
def Obligations.RequestsWithoutTheirClaimAreRefused : Prop :=
  ∀ (p : Port) (b x y : Byte) (v w : Half) (points : List (BitVec 24)) (items : List ConfigItem)
    (s : Machine.State), s.ready p →
    (∀ z : Zone, b.toNat = z.val → ¬ s.heldBy (zoneClaim z) p →
      exec (.setZone p b x v y) s = .next (s.granted p (.setZone b x v y) .noClaim [] none) ∧
      exec (.scheduleInsert p b v x w) s = .next (s.granted p (.scheduleInsert b v x w) .noClaim [] none) ∧
      exec (.scheduleDelete p b v) s = .next (s.granted p (.scheduleDelete b v) .noClaim [] none) ∧
      exec (.scheduleLoad p b points) s = .next (s.granted p (.scheduleLoad b points) .noClaim [] none)) ∧
    (16 ≤ b.toNat →
      exec (.setZone p b x v y) s = .next (s.granted p (.setZone b x v y) .range [] none) ∧
      exec (.scheduleInsert p b v x w) s = .next (s.granted p (.scheduleInsert b v x w) .range [] none) ∧
      exec (.scheduleDelete p b v) s = .next (s.granted p (.scheduleDelete b v) .range [] none) ∧
      exec (.scheduleLoad p b points) s = .next (s.granted p (.scheduleLoad b points) .range [] none)) ∧
    (¬ s.heldBy configClaim p →
      exec (.configure p items) s = .next (s.granted p (.configure items) .noClaim [] none))

/-! ### Overrides -/

/-- PUSH_HOLD, whichever port and whatever the zone's mode: the stack's HOLD replaced and its BOOST removed, the
WINDOW left, the zone resolved, OVERRIDE_REPLACED the first notice of the request when the old hold was the other
port's; a value out of range changes no stack.
CANCEL_HOLD and CANCEL_BOOST: the entry leaves the stack, the others stay, the zone is resolved, and neither
OVERRIDE_EXPIRED nor OVERRIDE_REPLACED is raised, whoever owned the entry; with no such entry NOT_FOUND with the stack
report, and nothing changes.
Rests on the model's choices of logs 4 and 12. -/
def Obligations.OverridesArePushedAndCancelled : Prop :=
  (∀ (p : Port) (b : Byte) (target : Half) (locked holdEnd : Byte) (minutes : Half) (s : Machine.State), s.ready p →
    let r := HostReq.pushHold b target locked holdEnd minutes
    (∀ (z : Zone) (l : Bool) (e : HoldEnd), b.toNat = z.val → s.written.frostFloor ≤ target.toInt →
      target.toInt ≤ s.written.maxTarget → locked = encFlag l →
      (holdEnd = 0 ∧ 1 ≤ minutes.toNat ∧ minutes.toNat ≤ 10080 ∧ e = .duration minutes.toNat ∨
        holdEnd = 1 ∧ e = .untilNextPoint ∨ holdEnd = 2 ∧ e = .indefinite) →
      ∃ m, exec (.pushHold p b target locked holdEnd minutes) s = .next m ∧
        m.arbiter = (s.granted p r .ok (stackReport z m) none).arbiter ∧
        m.store = { s.store with
          overrides := s.store.overrides.set z ⟨some ⟨target.toInt, l, e, p⟩, none, s.store.overrides[z].window⟩ } ∧
        m.resolvedAt z ∧ (∀ y : Zone, y ≠ z → m.zones[y] = s.zones[y]) ∧
        m.zones[z].baseTarget = s.zones[z].baseTarget ∧ m.zones[z].baseSource = s.zones[z].baseSource ∧
        State.onlyStoreAndTargets (s.inFlight p r) m ∧
        (∀ q h, s.store.overrides[z].hold = some h → h.owner ≠ p → (s.port q).mask[1] = true →
          (m.port q).noticesLost = false →
          ∃ later, (m.port q).notices =
            (s.port q).notices ++ ⟨.overrideReplaced, .zone z, s.now, [0, portOrNone (some h.owner)]⟩ :: later) ∧
        ∀ q, m.zones[z] = s.zones[z] → (s.port q).mask[1] = true → (s.port q).notices.length < 32 →
          (m.port q).notices = (s.port q).notices ++
            (match s.store.overrides[z].hold with
              | some h => if h.owner = p then [] else [⟨.overrideReplaced, .zone z, s.now, [0, encPort h.owner]⟩]
              | none => [])) ∧
    (16 ≤ b.toNat ∨ target.toInt < s.written.frostFloor ∨ s.written.maxTarget < target.toInt ∨ 2 ≤ locked.toNat ∨
        3 ≤ holdEnd.toNat ∨ (holdEnd = 0 ∧ (minutes.toNat < 1 ∨ 10080 < minutes.toNat)) →
      exec (.pushHold p b target locked holdEnd minutes) s = .next (s.granted p r .range [] none))) ∧
  (∀ (p : Port) (b : Byte) (s : Machine.State), s.ready p →
    let untold := fun m : Machine.State => ∀ q : Port,
      (m.port q).queued .overrideExpired = (s.port q).queued .overrideExpired ∧
      (m.port q).queued .overrideReplaced = (s.port q).queued .overrideReplaced
    (∀ z : Zone, b.toNat = z.val →
      ((s.store.overrides[z].hold).isSome = true →
        ∃ m, exec (.cancelHold p b) s = .next m ∧
          m.arbiter = (s.granted p (.cancelHold b) .ok (stackReport z m) none).arbiter ∧
          m.store = { s.store with overrides := s.store.overrides.set z { s.store.overrides[z] with hold := none } } ∧
          m.resolvedAt z ∧ (∀ y : Zone, y ≠ z → m.zones[y] = s.zones[y]) ∧
          untold m ∧ State.onlyStoreAndTargets (s.inFlight p (.cancelHold b)) m) ∧
      (s.store.overrides[z].hold = none →
        exec (.cancelHold p b) s = .next (s.granted p (.cancelHold b) .notFound (stackReport z s) none)) ∧
      ((s.store.overrides[z].boost).isSome = true →
        ∃ m, exec (.cancelBoost p b) s = .next m ∧
          m.arbiter = (s.granted p (.cancelBoost b) .ok (stackReport z m) none).arbiter ∧
          m.store = { s.store with overrides := s.store.overrides.set z { s.store.overrides[z] with boost := none } } ∧
          m.resolvedAt z ∧ (∀ y : Zone, y ≠ z → m.zones[y] = s.zones[y]) ∧
          untold m ∧ State.onlyStoreAndTargets (s.inFlight p (.cancelBoost b)) m) ∧
      (s.store.overrides[z].boost = none →
        exec (.cancelBoost p b) s = .next (s.granted p (.cancelBoost b) .notFound (stackReport z s) none))) ∧
    (16 ≤ b.toNat →
      exec (.cancelHold p b) s = .next (s.granted p (.cancelHold b) .range [] none) ∧
      exec (.cancelBoost p b) s = .next (s.granted p (.cancelBoost b) .range [] none)))

/-! ### CONFIGURE -/

/-- CONFIGURE by the claim's holder: every value is written at the grant, the reply counts the items and those
that changed a value, every zone is resolved when a limit changes, and no block has taken a value up yet; a
check that fails gives RANGE and writes nothing.
The checks of CONFIGURE with the index each reply carries: the count; an item that names no parameter; a
parameter named twice; a value out of its range; a dependent pair that does not hold as it would stand after the
request (of two such pairs the first that R196 lists). The ranges are those of the table of 10 section 10.8, from the
lowest value of each parameter to the highest.
Rests on the model's choices of logs 4, 17, 30 and 37. -/
def Obligations.ConfigureChecksItsItemsThenWritesThemAll : Prop :=
  (∀ (p : Port) (items : List ConfigItem) (s : Machine.State), s.ready p → s.heldBy configClaim p →
    let r := HostReq.configure items
    let f := State.frozenFor configClaim s
    (configFault s.written items = none →
      ∃ m, exec (.configure p items) s = .next m ∧
        m.arbiter = (f.granted p r .ok [BitVec.ofNat 8 items.length,
          BitVec.ofNat 8 (items.filter fun i => !s.written.holdsItem i).length] (some configClaim)).arbiter ∧
        (∀ i ∈ items, m.written.holdsItem i = true) ∧
        (∀ (n : Nat) (c : Zone), n ≤ 34 → (∀ i ∈ items, itemKey i ≠ (n, some (if paramPerContact n then c else 0))) →
          m.written.get n c = s.written.get n c) ∧
        (m.written.frostFloor ≠ s.written.frostFloor ∨ m.written.maxTarget ≠ s.written.maxTarget →
          ∀ z : Zone, m.resolvedAt z) ∧
        (m.written.frostFloor = s.written.frostFloor → m.written.maxTarget = s.written.maxTarget →
          m.zones = s.zones) ∧
        m.store = f.store ∧ m.taken = s.taken ∧
        State.onlyStoreAndTargets { s.inFlight p r with written := m.written } m) ∧
    ∀ body, configFault s.written items = some body →
      exec (.configure p items) s = .next (f.granted p r .range body (some configClaim))) ∧
  (∀ (w : Params) (items : List ConfigItem),
    (items.length = 0 ∨ 24 < items.length → configFault w items = some []) ∧
    (1 ≤ items.length → items.length ≤ 24 →
      (∀ n, (h : n < items.length) →
          (34 < items[n].param.toNat ∨ (29 ≤ items[n].param.toNat ∧ 16 ≤ items[n].contact.toNat)) →
          (∀ k, (hk : k < n) → (items[k]'(by omega)).param.toNat ≤ 28 ∨
            ((items[k]'(by omega)).param.toNat ≤ 34 ∧ (items[k]'(by omega)).contact.toNat < 16)) →
        configFault w items = some [BitVec.ofNat 8 n]) ∧
      ((∀ i ∈ items, itemNamed i = true) →
        (∀ n, (h : n < items.length) → (∃ k, ∃ hk : k < n, itemKey (items[k]'(by omega)) = itemKey items[n]) →
            ((items.take n).map itemKey).Nodup → configFault w items = some [BitVec.ofNat 8 n]) ∧
        let good := fun i : ConfigItem => ∃ lo hi, parameterRanges[i.param.toNat]? = some (lo, hi) ∧
          let v : Int := if i.param.toNat ∈ [0, 1, 3, 22, 23] then i.value.toInt else i.value.toNat
          lo ≤ v ∧ v ≤ hi
        ((items.map itemKey).Nodup → ∀ n, (h : n < items.length) → ¬ good items[n] →
            (∀ k, (hk : k < n) → good (items[k]'(by omega))) →
          configFault w items = some [BitVec.ofNat 8 n]) ∧
        ((items.map itemKey).Nodup → (∀ i ∈ items, good i) →
          let v := w.putAll items
          let pairs : List (Nat × Nat × Prop) := [(5, 4, v.callOff + 5 ≤ v.callOn), (21, 20, v.staleAge < v.lostAge),
            (25, 24, v.resumeLevel + 2 ≤ v.holdoffLevel), (12, 13, v.minFlow < v.maxFlow)]
          let names := fun (a b : Nat) (i : ConfigItem) => i.param.toNat = a ∨ i.param.toNat = b
          let sound := fun x : Nat × Nat × Prop => (∃ i ∈ items, names x.1 x.2.1 i) → x.2.2
          ((∀ x ∈ pairs, sound x) → configFault w items = none) ∧
          ∀ before a b ok after n, pairs = before ++ (a, b, ok) :: after → (∀ x ∈ before, sound x) → ¬ ok →
            (h : n < items.length) → names a b items[n] →
            (∀ k, n < k → (hk : k < items.length) → ¬ names a b items[k]) →
            configFault w items = some [BitVec.ofNat 8 n]))))

/-! ### Completions (R67, R70, R73, R187) -/

/-- The completion of a port's own request with nothing waiting: its reply reaches the port, the claim it used
and still holds restarts and thaws, and the arbiter is idle, parked on the port.
A completion whose port has a reset pending on the request: the reply is thrown away and recorded nowhere,
and the reset's step is granted next.
Rests on the model's choices of logs 4, 5 and 38. -/
def Obligations.ACompletionBringsTheReplyOrLetsTheResetGoOn : Prop :=
  (∀ (p : Port) (r : HostReq) (st : Status) (body : List Byte) (used : Option ClaimIx) (s : Machine.State),
    s.portIdle p → (∀ items, r ≠ .configure items) →
    exec .storeRequestComplete (s.granted p r st body used) = .next (s.finished p r st body used)) ∧
  (∀ (p : Port) (r : HostReq) (st : Status) (body : List Byte) (used : Option ClaimIx) (s : Machine.State),
    (s.port p).discard = true → (∀ items, r ≠ .configure items) →
    let g := s.granted p r st body used
    ∃ t, exec .storeRequestComplete g = .next t ∧
      t.port p = { g.port p with discard := false, attentionLow := (g.port p).attentionNeeded } ∧
      t.port p.other = g.port p.other ∧
      t.arbiter = ⟨⟨none, none, none, none, none⟩, some ⟨.resetStep p, .done⟩, p.requester⟩ ∧
      (∀ c : ClaimIx, t.store.claims[c] = if s.holds p c then none else s.store.claims[c]))

/-- The completion of a taken CONFIGURE: the blocks use the new values from then on; a new loop_period restarts
the loop timer, a new served_limit makes a recomputation due, new hold-off levels are compared with the present
count, a contact input turned off is put back, a new open_threshold judges every channel, and the claim restarts from
the new claim_lapse.
Rests on the model's choices of logs 4 and 28. -/
def Obligations.ACompletedConfigureReachesTheBlocks : Prop :=
  ∀ (p : Port) (items : List ConfigItem) (body : List Byte) (s : Machine.State), s.portIdle p →
    s.heldBy configClaim p →
    ∃ t, exec .storeRequestComplete (s.granted p (.configure items) .ok body (some configClaim)) = .next t ∧
      t.taken = s.written ∧ t.written = s.written ∧ t.clock = s.clock ∧ t.link = s.link ∧
      t.store.claims[configClaim] = some ⟨p, s.written.claimLapse, false⟩ ∧
      (t.port p).reply = some ⟨some 16, .ok, body⟩ ∧ (t.port p).request = .replyReady ∧
      t.demand.loopStart = (if s.taken.loopPeriod = s.written.loopPeriod then s.demand.loopStart
        else s.clock.ticks) ∧
      t.demand.servedRecompute = (s.demand.servedRecompute || decide (s.taken.servedLimit ≠ s.written.servedLimit)) ∧
      (∀ z : Zone, s.taken.contacts[z].enable = true → s.written.contacts[z].enable = false →
        (t.contacts.inputs[z]).openTimer = none ∧ (t.contacts.inputs[z]).run = 0 ∧
          (t.contacts.inputs[z]).stableState = .isClosed ∧ (t.contacts.inputs[z]).windowAsserted = false) ∧
      (∀ z : Zone, s.taken.contacts[z].enable = false ∨ s.written.contacts[z].enable = true →
        t.contacts.inputs[z] = s.contacts.inputs[z]) ∧
      (s.taken.holdoffLevel ≠ s.written.holdoffLevel ∨ s.taken.resumeLevel ≠ s.written.resumeLevel →
        State.holdOffJudged s.receiveCount { s with taken := s.written } t) ∧
      (s.taken.holdoffLevel = s.written.holdoffLevel → s.taken.resumeLevel = s.written.resumeLevel →
        t.report = s.report ∧ t.bus.control = s.bus.control) ∧
      (s.taken.openThreshold ≠ s.written.openThreshold → ∀ c : Channel,
        (t.channel c).openConfirmed = (s.channel c).judgeOpen s.written.openThreshold) ∧
      ∀ c : Channel, { t.channel c with openConfirmed := (s.channel c).openConfirmed } = s.channel c

/-- A request of a port that goes to the Store Arbiter: with the arbiter busy it joins the waiting set in its port's
place and freezes the claim it needs, if the port holds it; with the arbiter idle it is carried out at once.
The arbiter's ring: of the waiting requests the one next granted is that of the first requester after the parked
one.
A completion of any request: after its hand-back the arbiter stands idle and grants the waiting request that comes
first in the ring: it is carried out next, with its own effect and no other, and its requester parked; of a requester
with a list of its own the head of the list takes the place left.
Rests on the model's choices of logs 4 and 5. -/
def Obligations.GrantsGoRoundTheRing : Prop :=
  (∀ (p : Port) (r : HostReq) (req : StoreReq) (s : Machine.State), s.portIdle p → s.placedFor p r = some req →
    let taken := if r = .portReset then (s.joined p r req).modPort p fun ps => { ps with resetPending := true }
      else s.joined p r req
    (s.arbiter.carrying.isSome = true → exec (requestCommand p r) s = .next taken) ∧
    (s.arbiterIdle →
      let empty : WaitingSet := ⟨none, none, none, none, none⟩
      let a := carryOut req { taken with arbiter := ⟨empty, none, p.requester⟩ }
      exec (requestCommand p r) s = .next { a.1 with arbiter := ⟨empty, some ⟨req, a.2⟩, p.requester⟩ })) ∧
  (∀ a : Arbiter,
    (a.next = none ↔ a.waiting = ⟨none, none, none, none, none⟩) ∧
    ∀ q r, a.next = some (q, r) ↔ a.waiting.get q = some r ∧
      ∀ q', a.parked.after q' < a.parked.after q → a.waiting.get q' = none) ∧
  (∀ (c : Carried) (s : Machine.State), s.arbiter.carrying = some c →
    let u := afterHandBack c s
    u.arbiter.carrying = none ∧ u.arbiter.parked = s.arbiter.parked ∧
    ((∃ m, c.req = .minuteEval m) ∨ (∃ z k, c.req = .window z k) → u.arbiter.waiting = s.arbiter.waiting) ∧
    ∃ t, exec .storeRequestComplete s = .next t ∧
      (u.arbiter.next = none → t = u) ∧
      ∀ q r, u.arbiter.next = some (q, r) →
        t.arbiter.parked = q ∧ t.arbiter.carrying.map (·.req) = some r ∧
        t.arbiter.waiting = u.arbiter.waiting.set q (match q with
          | .contact => u.contacts.pendingOrders.head?.map fun o => .window o.zone o.kind
          | .report => u.report.storeOrders.head?
          | _ => none) ∧
        t.contacts.pendingOrders = (if q = .contact then u.contacts.pendingOrders.tail else u.contacts.pendingOrders) ∧
        t.report.storeOrders = (if q = .report then u.report.storeOrders.tail else u.report.storeOrders) ∧
        let a := carryOut r { u with arbiter := ⟨u.arbiter.waiting.set q none, none, q⟩ }
        t.arbiter.carrying = some ⟨r, a.2⟩ ∧
        ((∀ x ∈ u.report.storeOrders, x.ofReport) → t = { a.1 with
          arbiter := t.arbiter
          contacts := { a.1.contacts with pendingOrders := t.contacts.pendingOrders }
          report := { a.1.report with storeOrders := t.report.storeOrders } }))

/-- PORT_RESET with the port idle or its reply waiting: the reset's step is granted at once and frees the port's
claims and authority; its completion carries out the port-local part and places the reply. With the arbiter busy the
step waits in the port's place. With a request in flight it only marks that request's reply to be discarded.
Rests on the model's choices of logs 4 and 20. -/
def Obligations.PortResetFreesWhatThePortHolds : Prop :=
  ∀ (p : Port) (s : Machine.State),
    ((s.port p).request ≠ .inFlight → s.portIdle p ∨ (s.port p).resetPending = false → s.arbiterIdle →
      ∃ m t, exec (.portReset p) s = .next m ∧ exec .storeRequestComplete m = .next t ∧
        (m.port p).request = .inFlight ∧ (m.port p).resetPending = true ∧
        (∀ c : ClaimIx, t.store.claims[c] = if s.holds p c then none else s.store.claims[c]) ∧
        t.clock = { s.clock with authority := if s.clock.authority = some p then none else s.clock.authority } ∧
        t.port p.other = { s.port p.other with
          otherSeen := true, attentionLow := (s.port p.other).attentionNeeded } ∧
        t.port p = { s.port p with
          request := .replyReady
          slot := none
          reply := some ⟨some 29, .ok, []⟩
          resetPending := false
          discard := false
          notices := []
          mask := Vector.replicate 22 true
          noticesLost := false
          fault := none
          fetch := (s.port p).fetch.map fun f => { f with gone := true }
          attentionLow := true } ∧
        t = { s with
          clock := t.clock
          store := { s.store with claims := t.store.claims }
          arbiter := { s.arbiter with parked := p.requester }
          portA := t.portA
          portB := t.portB }) ∧
    ((s.port p).request ≠ .inFlight → s.portIdle p ∨ (s.port p).resetPending = false →
      s.arbiter.carrying.isSome = true →
      let u := (s.modPort p.other fun ps => { ps with otherSeen := true }).modPort p fun ps =>
        { ps with
          slot := some .portReset
          request := .inFlight
          resetPending := true
          reply := if ps.request = .idle then ps.reply else none }
      exec (.portReset p) s = .next { u with
        arbiter := { s.arbiter with waiting := s.arbiter.waiting.set p.requester (some (.resetStep p)) } }) ∧
    ((s.port p).request = .inFlight → (s.port p).resetPending = false →
      exec (.portReset p) s =
        .next ((s.modPort p.other fun ps => { ps with otherSeen := true }).modPort p fun ps =>
          { ps with resetPending := true, discard := true })) ∧
    ((s.port p).request ≠ .idle → (s.port p).resetPending = true →
      exec (.portReset p) s =
        .next ((s.modPort p.other fun ps => { ps with otherSeen := true }).modPort p fun ps =>
          { ps with fault := faultAfter ps.fault (some 29) .busy none s.now }))

/-! ### Requests carried out by their owners after a claim check (R70) -/

/-- UNIT_ADMIT, UNIT_REMOVE and VALVE_ASSIGN, whatever index or channel number they name, and VALVE_SERVICE of a
channel begin with a claim check in the port's name, which freezes a claim the port holds; the completion of a check
that fails brings NO_CLAIM.
VALVE_SERVICE of a channel number out of range is answered at once, without a claim check.
Rests on the model's choices of log 4. -/
def Obligations.OwnersRequestsBeginWithAClaimCheck : Prop :=
  (∀ (p : Port) (i z k lo hi : Byte) (stroke : Half) (entries : List ServiceEntry) (s : Machine.State), s.ready p →
    let checked := fun (r : HostReq) (claim : ClaimIx) =>
      if s.holds p claim then
        State.carrying p (.check p r claim) (.checked true) ((s.frozenFor claim).inFlight p r)
      else State.carrying p (.check p r claim) (.checked false) (s.inFlight p r)
    exec (.unitAdmit p i z k) s = .next (checked (.unitAdmit i z k) configClaim) ∧
    exec (.unitRemove p i) s = .next (checked (.unitRemove i) configClaim) ∧
    exec (.valveAssign p i z stroke lo hi) s = .next (checked (.valveAssign i z stroke lo hi) configClaim) ∧
    (∀ c : Channel, i.toNat = c.val →
      let channelClaim := match (s.channel c).zone with
        | some y => zoneClaim y
        | none => configClaim
      exec (.valveService p i entries) s = .next (checked (.valveService i entries) channelClaim)) ∧
    ∀ (r : HostReq) (claim : ClaimIx),
      exec .storeRequestComplete (State.carrying p (.check p r claim) (.checked false) (s.inFlight p r)) =
        .next (s.finished p r .noClaim [] none)) ∧
  (∀ (p : Port) (b : Byte) (entries : List ServiceEntry) (s : Machine.State), s.portIdle p → 24 ≤ b.toNat →
    exec (.valveService p b entries) s = .next (s.afterReply p (.valveService b entries) .range []))

/-- A UNIT_ADMIT that passed its check: the record becomes ACTIVE in the zone with the role, its other fields as
they stood; a JOIN_ACK is queued, or, with the outbound queue full, SEND_FAILED raised for it; the measurements of the new zone and of the old one are chosen anew; the
claim restarts. A FREE record gives NOT_FOUND, a value out of range RANGE.
Rests on the model's choices of logs 4, 5, 11, 12, 24 and 32. -/
def Obligations.UnitAdmitMakesARecordActive : Prop :=
  ∀ (p : Port) (i zb k : Byte) (s : Machine.State), s.portIdle p → s.heldBy configClaim p →
    let r := HostReq.unitAdmit i zb k
    let w := State.carrying p (.check p r configClaim) (.checked true) (s.inFlight p r)
    let refused := fun st => exec .storeRequestComplete w = .next (s.finished p r st [] (some configClaim))
    (∀ (u : UnitIx) (z : Zone) (role : Role) (old : UnitRecord), i.toNat = u.val → zb.toNat = z.val →
      role? k = some role → s.report.registry[u] = some old →
      ∃ t, exec .storeRequestComplete w = .next t ∧
        t.report = { s.report with registry := s.report.registry.set u (some { old with state := .active z role }) } ∧
        (s.bus.outbound.length < 8 → t.bus.outbound = s.bus.outbound ++ [⟨.joinAck old.address (some z), 0⟩]) ∧
        (8 ≤ s.bus.outbound.length → t.bus = s.bus ∧
          ∀ q : Port, (s.port q).mask[11] = true → (t.port q).noticesLost = false →
            ⟨.sendFailed, .address old.address, s.now, [0x07, 2, 0]⟩ ∈ (t.port q).notices) ∧
        (∀ y : Zone, y = z ∨ old.zone = some y →
          (t.zones[y].measured, t.zones[y].measureState, t.zones[y].measureUnit) = measurement y t) ∧
        (∀ y : Zone, y ≠ z → old.zone ≠ some y → t.zones[y] = s.zones[y]) ∧
        (∀ y : Zone, t.zones[y] = { s.zones[y] with
          measured := t.zones[y].measured
          measureState := t.zones[y].measureState
          measureUnit := t.zones[y].measureUnit }) ∧
        (t.port p).reply = some ⟨some 18, .ok, unitRecordBody u t⟩ ∧ (t.port p).request = .replyReady ∧
        t.store = { s.store with
          claims := s.store.claims.set configClaim (some ⟨p, s.written.claimLapse, false⟩) } ∧
        t.arbiter = ⟨⟨none, none, none, none, none⟩, none, p.requester⟩ ∧
        t.clock = s.clock ∧ t.written = s.written ∧ t.taken = s.taken ∧ t.contacts = s.contacts ∧
        t.valves = s.valves ∧ t.firing = s.firing ∧ t.link = s.link ∧
        t.demand = { s.demand with zoneEvents := t.demand.zoneEvents } ∧
        t.bus = { s.bus with outbound := t.bus.outbound, deferral := t.bus.deferral }) ∧
    (∀ (u : UnitIx) (z : Zone) (role : Role), i.toNat = u.val → zb.toNat = z.val → role? k = some role →
      s.report.registry[u] = none → refused .notFound) ∧
    (32 ≤ i.toNat ∨ 16 ≤ zb.toNat ∨ 2 ≤ k.toNat → refused .range)

/-- A UNIT_REMOVE that passed its check: the record is FREE, no zone names it as primary, the measurements it
touches are chosen anew, and an owner-removal request is carried out next; at the completion of that the port
has its reply and every BOOST the unit owned is gone.
Whatever waits: the owner-removal takes the Report Processor's place, or with that place taken or orders waiting stands
at the tail of the store orders, and the request stays in flight. A FREE record gives NOT_FOUND, an index out of range
RANGE.
Rests on the model's choices of logs 4 and 5. -/
def Obligations.UnitRemoveFreesARecord : Prop :=
  (∀ (p : Port) (i : Byte) (s : Machine.State), s.portIdle p → s.heldBy configClaim p →
    let r := HostReq.unitRemove i
    let w := State.carrying p (.check p r configClaim) (.checked true) (s.inFlight p r)
    let refused := fun st => exec .storeRequestComplete w = .next (s.finished p r st [] (some configClaim))
    (∀ u : UnitIx, i.toNat = u.val → s.report.registry[u] = none → refused .notFound) ∧
    (32 ≤ i.toNat → refused .range)) ∧
  (∀ (p : Port) (i : Byte) (u : UnitIx) (old : UnitRecord) (s : Machine.State), i.toNat = u.val →
    s.report.registry[u] = some old →
    let c : Carried := ⟨.check p (.unitRemove i) configClaim, .checked true⟩
    s.arbiter.carrying = some c →
    let v := afterHandBack c s
    let removal := StoreReq.ownerRemoval u p
    (s.report.storeOrders = [] → s.arbiter.waiting.report = none →
      v.report = { s.report with registry := s.report.registry.set u none } ∧
      v.arbiter = { s.arbiter with waiting := { s.arbiter.waiting with report := some removal }, carrying := none }) ∧
    (s.report.storeOrders ≠ [] ∨ (s.arbiter.waiting.report).isSome = true →
      v.report = { s.report with
        registry := s.report.registry.set u none, storeOrders := s.report.storeOrders ++ [removal] } ∧
      v.arbiter = { s.arbiter with carrying := none }) ∧
    v.portA = s.portA ∧ v.portB = s.portB ∧ v.store = s.store ∧ v.bus = s.bus ∧ v.valves = s.valves ∧
    (∀ z : Zone, v.zones[z].primaryUnit =
      if s.zones[z].primaryUnit = some u then none else s.zones[z].primaryUnit) ∧
    (∀ z : Zone, s.zones[z].primaryUnit = some u ∨ old.zone = some z →
      (v.zones[z].measured, v.zones[z].measureState, v.zones[z].measureUnit) = measurement z v)) ∧
  ∀ (p : Port) (i : Byte) (u : UnitIx) (old : UnitRecord) (s : Machine.State), s.portIdle p →
    s.heldBy configClaim p → i.toNat = u.val → s.report.registry[u] = some old → s.report.storeOrders = [] →
    let r := HostReq.unitRemove i
    let w := State.carrying p (.check p r configClaim) (.checked true) (s.inFlight p r)
    ∃ m t, exec .storeRequestComplete w = .next m ∧ exec .storeRequestComplete m = .next t ∧
      m.report = { s.report with registry := s.report.registry.set u none } ∧
      m.arbiter = ⟨⟨none, none, none, none, none⟩, some ⟨.ownerRemoval u p, .done⟩, .report⟩ ∧
      (m.port p).request = .inFlight ∧
      (∀ z : Zone, m.zones[z].primaryUnit =
        if s.zones[z].primaryUnit = some u then none else s.zones[z].primaryUnit) ∧
      (∀ z : Zone, s.zones[z].primaryUnit = some u ∨ old.zone = some z →
        (m.zones[z].measured, m.zones[z].measureState, m.zones[z].measureUnit) = measurement z m) ∧
      (∀ z : Zone, m.store.overrides[z] =
        if s.store.overrides[z].boost.any (·.owner = u) then { s.store.overrides[z] with boost := none }
        else s.store.overrides[z]) ∧
      (∀ z : Zone, s.store.overrides[z].boost.any (·.owner = u) = true → m.resolvedAt z) ∧
      m.store.lists = s.store.lists ∧ m.store.claims = s.store.claims ∧ m.valves = s.valves ∧
      t = { (m.modPort p fun ps => { ps with request := .replyReady, reply := some ⟨some 19, .ok, []⟩ }).setClaim
            configClaim (some ⟨p, s.written.claimLapse, false⟩) with
        arbiter := ⟨⟨none, none, none, none, none⟩, none, .report⟩ }

/-- A VALVE_ASSIGN that passed its check and keeps the zone writes the three settings and nothing else of the
channel. A value out of range gives RANGE, a MOVING channel STATE.
A VALVE_ASSIGN that passed its check and changes the zone: the channel is flushed, with VALVE_MARK ABORTED for each
MARK of its queue at the owner and no other VALVE_MARK of the channel, and set by its new zone as the table of R137
gives, and the valve counts of both zones are written.
Rests on the model's choices of logs 4, 5, 10, 11, 12, 24, 32 and 51. -/
def Obligations.ValveAssignSetsAChannel : Prop :=
  (∀ (p : Port) (b zb lo hi : Byte) (stroke : Half) (s : Machine.State), s.portIdle p → s.heldBy configClaim p →
    let r := HostReq.valveAssign b zb stroke lo hi
    let w := State.carrying p (.check p r configClaim) (.checked true) (s.inFlight p r)
    let after := fun st body (u : Machine.State) => u.finished p r st body (some configClaim)
    let inRange := 10 ≤ stroke.toNat ∧ stroke.toNat ≤ 300 ∧ hi.toNat ≤ 100 ∧ lo.toNat < hi.toNat
    (∀ (c : Channel) (z : Option Zone), b.toNat = c.val → finOrNone? 16 zb = some z → inRange →
      ((s.channel c).state = .moving → exec .storeRequestComplete w = .next (after .state [] s)) ∧
      ((s.channel c).state ≠ .moving → (s.channel c).zone = z →
        let u := s.modChannel c fun ch =>
          { ch with fullStroke := stroke.toNat, minPos := lo.toNat, maxPos := hi.toNat }
        exec .storeRequestComplete w = .next (after .ok (channelRecordBody c u) u))) ∧
    (24 ≤ b.toNat ∨ (16 ≤ zb.toNat ∧ zb ≠ 0xFF) ∨ ¬ inRange →
      exec .storeRequestComplete w = .next (after .range [] s))) ∧
  (∀ (p : Port) (b zb lo hi : Byte) (stroke : Half) (c : Channel) (z : Option Zone) (s : Machine.State),
    s.portIdle p → s.heldBy configClaim p → b.toNat = c.val → finOrNone? 16 zb = some z →
    10 ≤ stroke.toNat → stroke.toNat ≤ 300 → hi.toNat ≤ 100 → lo.toNat < hi.toNat →
    (s.channel c).state ≠ .moving → (s.channel c).zone ≠ z →
    let r := HostReq.valveAssign b zb stroke lo hi
    let w := State.carrying p (.check p r configClaim) (.checked true) (s.inFlight p r)
    ∃ t, exec .storeRequestComplete w = .next t ∧
      (t.port p).reply = some ⟨some 21, .ok, channelRecordBody c t⟩ ∧
      (t.channel c).zone = z ∧ (t.channel c).fullStroke = stroke.toNat ∧ (t.channel c).minPos = lo.toNat ∧
      (t.channel c).maxPos = hi.toNat ∧ (t.channel c).urgent = none ∧ t.demand.lastIssued[c] = none ∧
      (∀ q : Port, (s.port q).mask[14] = true → (t.port q).noticesLost = false →
        (t.port q).marksOf c = (s.port q).marksOf c ++ marksAborted q c s.now (s.channel c).queue) ∧
      (∀ y : Zone, (s.channel c).zone = some y ∨ z = some y →
        t.zones[y].valveCount = (allChannels.filter fun d => (t.channel d).zone = some y).length) ∧
      (z = none → (t.channel c).state = .unassigned ∧ (t.channel c).calibrated = false ∧
        (t.channel c).position = none ∧ (t.channel c).queue = [] ∧ (t.channel c).inProgress = none) ∧
      (z ≠ none → (s.channel c).state = .fault → (t.channel c).state = .fault ∧ (t.channel c).queue = []) ∧
      (z ≠ none → (s.channel c).state ≠ .fault → (s.channel c).calibrated = true →
        (t.channel c).state = .idle ∧ (t.channel c).calibrated = true ∧
          (t.channel c).position = (s.channel c).position ∧ (t.channel c).queue = [] ∧
          (t.channel c).inProgress = none) ∧
      (z ≠ none → (s.channel c).state ≠ .fault → (s.channel c).calibrated = false →
        (t.channel c).calibrated = false ∧ (t.channel c).queue = [.seekClosed] ∧
          ((t.channel c).state = .waiting ∨ (t.channel c).state = .moving)) ∧
      t.store = { s.store with
        claims := s.store.claims.set configClaim (some ⟨p, s.written.claimLapse, false⟩) } ∧
      t.clock = s.clock ∧ t.written = s.written ∧ t.taken = s.taken ∧ t.contacts = s.contacts ∧
      t.report = s.report ∧ t.bus = s.bus ∧ t.link = s.link)

/-- A VALVE_SERVICE that passed its check: refused by the first check that fails, or its entries stand at the
tail of the queue; on a channel that is busy nothing else of the channel changes.
A channel at rest takes up its entries at once: those before the first that keeps it busy, MARKs and MOVE_TOs to the
position it holds, leave the queue, each MARK telling its owner; a DWELL then begins, a MOVE_TO or SEEK_CLOSED waits
at the tail of the list when no slot is free, or starts in the lowest-numbered free slot; with no entry left the
channel rests.
Rests on the model's choices of logs 4, 5, 12, 22 and 51. -/
def Obligations.ValveServiceAppendsItsEntries : Prop :=
  ∀ (p : Port) (b : Byte) (entries : List ServiceEntry) (c : Channel) (s : Machine.State), s.portIdle p →
    b.toNat = c.val →
    let claim := match (s.channel c).zone with
      | some y => zoneClaim y
      | none => configClaim
    s.heldBy claim p →
    let r := HostReq.valveService b entries
    let w := State.carrying p (.check p r claim) (.checked true) (s.inFlight p r)
    let after := fun st body (u : Machine.State) => u.finished p r st body (some claim)
    let ch := s.channel c
    (entries.length = 0 ∨ 6 < entries.length ∨ (∃ e ∈ entries, serviceEntry? p e = none) →
      exec .storeRequestComplete w = .next (after .range [] s)) ∧
    ∀ l : List Entry, entries.map (serviceEntry? p) = l.map some → 1 ≤ l.length → l.length ≤ 6 →
      (ch.state = .fault ∨ (ch.calibrated = false ∧ ∃ e ∈ l, (∀ o g, e ≠ .mark o g) ∧ e ≠ .seekClosed) →
        exec .storeRequestComplete w = .next (after .state [] s)) ∧
      (ch.state ≠ .fault → (ch.calibrated = true ∨ ∀ e ∈ l, (∃ o g, e = .mark o g) ∨ e = .seekClosed) →
        (8 < ch.queue.length + l.length → exec .storeRequestComplete w = .next (after .queueFull [] s)) ∧
        (ch.queue.length + l.length ≤ 8 →
          let body := [b, ch.state.code, BitVec.ofNat 8 l.length, BitVec.ofNat 8 (ch.queue.length + l.length)]
          (∃ t, exec .storeRequestComplete w = .next t ∧
            (t.port p).reply = some ⟨some 22, .ok, body⟩ ∧ (t.port p).request = .replyReady ∧
            t.store.claims[claim] = some ⟨p, s.written.claimLapse, false⟩) ∧
          (ch.inProgress.isSome = true ∨ ch.state = .waiting →
            exec .storeRequestComplete w =
              .next (after .ok body (s.modChannel c fun d => { d with queue := d.queue ++ l }))) ∧
          (ch.inProgress = none → ch.state ≠ .waiting → ch.queue = [] → ch.urgent = none →
            ((∃ i : Slot, s.valves.slots[i] = none) → s.valves.waiting = []) →
            ∀ done left : List Entry, l = done ++ left → (∀ e ∈ done, ch.doneWithoutMovement e) →
              let told := State.marksDone c done s
              let put := fun state (job : Option InProgress) =>
                told.modChannel c fun d => { d with queue := left, state := state, inProgress := job }
              (left = [] → exec .storeRequestComplete w = .next (after .ok body (put
                (if ch.zone = none then .unassigned else if ch.calibrated then .idle else .uncalibrated) none))) ∧
              (∀ d q, left = .dwell d :: q → exec .storeRequestComplete w = .next (after .ok body
                (put .dwelling (some ⟨.dwell d, s.clock.ticks, s.now, none⟩)))) ∧
              ∀ e q target, left = e :: q →
                e = .moveTo target .service ∧ ch.position ≠ some target ∨ e = .seekClosed ∧ target = 0 →
                ((∀ i : Slot, (s.valves.slots[i]).isSome = true) →
                  exec .storeRequestComplete w = .next (after .ok body { put .waiting none with
                    valves := { (put .waiting none).valves with waiting := s.valves.waiting ++ [c] } })) ∧
                ∀ i : Slot, s.valves.slots[i] = none → (∀ j : Slot, j < i → (s.valves.slots[j]).isSome = true) →
                  ∃ u, exec .storeRequestComplete w = .next (after .ok body u) ∧
                    u.channel c = { ch with
                      queue := left
                      state := .moving
                      inProgress :=
                        some ⟨e, s.clock.ticks, s.now, some ⟨ch.position, target, i, ch.fullStroke⟩⟩
                      openConfirmed := (u.channel c).openConfirmed } ∧
                    ((u.channel c).openConfirmed = true ↔ (u.channel c).openAt s.taken.openThreshold) ∧
                    (∀ d : Channel, d ≠ c → u.channel d = s.channel d) ∧
                    u.valves = { s.valves with
                      channels := u.valves.channels, slots := s.valves.slots.set i (some c) } ∧
                    let issued := if e ≠ .seekClosed ∧ s.demand.lastIssued[c] = some target then some target else none
                    u.demand = { s.demand with lastIssued := s.demand.lastIssued.set c issued })))

/-- VALVE_CLEAR of a channel in FAULT that holds no work, with every drive slot in use: UNCALIBRATED, position
unknown, a SEEK_CLOSED queued, and WAITING at the tail of the list; of another channel STATE.
Rests on the model's choices of log 51. -/
def Obligations.ValveClearStartsASeekClosed : Prop :=
  ∀ (p : Port) (b : Byte) (s : Machine.State), s.portIdle p →
    (∀ c : Channel, b.toNat = c.val →
      ((s.channel c).state = .fault → (s.channel c).queue = [] → (s.channel c).urgent = none →
        (s.channel c).inProgress = none → s.valves.waiting = [] →
        ((∀ i : Slot, (s.valves.slots[i]).isSome = true) →
          exec (.valveClear p b) s = .next (State.afterReply p (.valveClear b) .ok []
            (({ s with valves := { s.valves with waiting := [c] } }.setIssued c none).modChannel c fun ch =>
              { ch with state := .waiting, calibrated := false, position := none, queue := [.seekClosed] }))) ∧
        (∀ i : Slot, s.valves.slots[i] = none → (∀ j : Slot, j < i → (s.valves.slots[j]).isSome = true) →
          ∃ t, exec (.valveClear p b) s = .next t ∧
            (t.port p).reply = some ⟨some 23, .ok, []⟩ ∧
            t.channel c = { s.channel c with
              state := .moving, calibrated := false, position := none, queue := [.seekClosed]
              openConfirmed := false
              inProgress := some ⟨.seekClosed, s.clock.ticks, s.now, some ⟨none, 0, i, (s.channel c).fullStroke⟩⟩ } ∧
            (∀ d : Channel, d ≠ c → t.channel d = s.channel d) ∧
            t.valves.slots = s.valves.slots.set i (some c) ∧ t.valves.waiting = [] ∧
            t.demand = { s.demand with lastIssued := s.demand.lastIssued.set c none } ∧
            t.store = s.store ∧ t.clock = s.clock ∧ t.contacts = s.contacts ∧ t.bus = s.bus ∧
            t.report = s.report ∧ t.link = s.link)) ∧
      ((s.channel c).state ≠ .fault →
        exec (.valveClear p b) s = .next (s.afterReply p (.valveClear b) .state []))) ∧
    (24 ≤ b.toNat → exec (.valveClear p b) s = .next (s.afterReply p (.valveClear b) .range []))

/-! ### The Clock's events -/

/-- A second event that is no minute event: the count, the claims, the units' freshness, and nothing else but
what these raise.
Rests on the model's choices of logs 1, 6 and 7. -/
def Obligations.ASecondEventCountsClaimsAndUnits : Prop :=
  ∀ s : Machine.State, s.clock.seconds < 59 →
    ∃ t, exec .secondEvent s = .next t ∧
      t.clock = { s.clock with
        ticks := s.ticksAt ((s.clock.secondsTaken + 1) * 32768)
        secondsTaken := s.clock.secondsTaken + 1
        seconds := s.clock.seconds + 1 } ∧
      (∀ c : ClaimIx, State.claimCounted c s t) ∧
      t.store = { s.store with claims := t.store.claims } ∧
      (∀ u : UnitIx, t.report.registry[u] = (s.report.registry[u]).map fun r =>
        match r.lastReport with
        | some at' => { r with freshness := agedFreshness r.freshness (t.now - at') s.taken.staleAge s.taken.lostAge }
        | none => r) ∧
      t.report = { s.report with registry := t.report.registry } ∧
      (∀ z : Zone, t.zones[z] = { s.zones[z] with
        measured := t.zones[z].measured
        measureState := t.zones[z].measureState
        measureUnit := t.zones[z].measureUnit }) ∧
      ((∀ u : UnitIx, t.report.registry[u] = s.report.registry[u]) → t.zones = s.zones) ∧
      (∀ p, (∀ u : UnitIx, t.report.registry[u] = s.report.registry[u]) →
        (∀ (c : ClaimIx) (h : Held), s.store.claims[c] = some h → h.holder = p → (t.store.claims[c]).isSome = true) →
        (t.port p).notices = (s.port p).notices) ∧
      t = { s with
        clock := t.clock
        store := t.store
        report := t.report
        zones := t.zones
        demand := { s.demand with zoneEvents := t.demand.zoneEvents }
        bus := { s.bus with backoffReg := t.bus.backoffReg }
        portA := { s.portA with
          notices := t.portA.notices, noticesLost := t.portA.noticesLost, attentionLow := t.portA.attentionLow }
        portB := { s.portB with
          notices := t.portB.notices, noticesLost := t.portB.noticesLost, attentionLow := t.portB.attentionLow } }

/-- A minute event: the minute of week advances, midnight clears resets_today, and a minute evaluation is granted
at once, merges into the one that waits, or waits; granted at once it has acted in the same command.
At 03:00 with exercise_enable and a valid time, every IDLE channel of an IDLE zone that has stood still for a week is
given its three SERVICE entries (stated with no channel waiting for a slot); at no other event a valve is touched.
A minute evaluation covering m minutes, whenever it is granted: points, holds, counts and resolutions of every
zone, and no list or claim. The current point, its base, and counts lowered by m, as their rules give them.
Rests on the model's choices of logs 1, 3, 4, 6 and 7. -/
def Obligations.AMinuteEventBringsItsEvaluation : Prop :=
  (∀ s : Machine.State, s.arbiterSound → 59 ≤ s.clock.seconds →
    ∃ t, exec .minuteEvent s = .next t ∧ exec .secondEvent s = .next t ∧
      t.clock = { s.clock with
        ticks := s.ticksAt ((s.clock.secondsTaken + 1) * 32768)
        secondsTaken := s.clock.secondsTaken + 1
        seconds := 0
        minute := (s.clock.minute + 1) % 10080 } ∧
      t.firing.resetsToday = (if (s.clock.minute + 1) % 10080 % 1440 = 0 then 0 else s.firing.resetsToday) ∧
      (∀ c : ClaimIx, State.claimCounted c s t) ∧
      t.store.lists = s.store.lists ∧ t.store.free = s.store.free ∧ t.store.revisions = s.store.revisions ∧
      (s.arbiterIdle → State.evaluatedBy 1 s t ∧
        t.arbiter = ⟨⟨none, none, none, none, none⟩, some ⟨.minuteEval 1, .done⟩, .clock⟩) ∧
      (∀ m, s.arbiter.waiting.clock = some (.minuteEval m) →
        t.arbiter = { s.arbiter with
          waiting := { s.arbiter.waiting with clock := some (.minuteEval (m + 1)) } }) ∧
      (s.arbiter.waiting.clock = none → s.arbiter.carrying.isSome = true →
        t.arbiter = { s.arbiter with waiting := { s.arbiter.waiting with clock := some (.minuteEval 1) } }) ∧
      let exercising := (s.clock.minute + 1) % 10080 % 1440 = 180 ∧ s.taken.exerciseEnable = true ∧
        s.clock.timeValid = true
      let chosen := fun c : Channel => (s.channel c).state = .idle ∧
        (∃ z, (s.channel c).zone = some z ∧ s.zones[z].callState = .idle) ∧
        ∃ last, (s.channel c).lastMoved = some last ∧ last + 604800 ≤ t.now
      (¬ exercising → t.valves = s.valves) ∧
      (exercising → s.valvesSound → s.valves.waiting = [] → ∀ c : Channel,
        (¬ chosen c → t.channel c = s.channel c) ∧
        (chosen c →
          ((s.channel c).position = some 100 →
            (t.channel c).state = .dwelling ∧ (t.channel c).queue = [.dwell 30, .moveTo 0 .service]) ∧
          ((s.channel c).position ≠ some 100 →
            ((t.channel c).state = .waiting ∨ (t.channel c).state = .moving) ∧
            (t.channel c).queue = [.moveTo 100 .service, .dwell 30, .moveTo 0 .service])))) ∧
  (∀ (m : Nat) (s : Machine.State),
    let t := (carryOut (.minuteEval m) s).1
    State.evaluatedBy m s t ∧ State.onlyStoreAndTargets s t ∧ t.arbiter = s.arbiter ∧
      t.store = { s.store with current := t.store.current, overrides := t.store.overrides }) ∧
  (∀ (minute : Nat) (l : List Point), l.Pairwise (fun a b => a.minute < b.minute) →
    currentPoint false minute l = none ∧ (l = [] → currentPoint true minute l = none) ∧
    ∀ p ∈ l, currentPoint true minute l = some p ↔
      (p.minute ≤ minute ∧ ∀ q ∈ l, q.minute ≤ minute → q.minute ≤ p.minute) ∨
      ((∀ q ∈ l, minute < q.minute) ∧ ∀ q ∈ l, q.minute ≤ p.minute)) ∧
  (∀ (minute : Nat) (target default : Int),
    baseOf (some ⟨minute, .target target⟩) default = (target, .point) ∧
    baseOf (some ⟨minute, .setbackToDefault⟩) default = (default, .default) ∧
    baseOf none default = (default, .default)) ∧
  (∀ (m remaining : Nat) (h : Hold) (b : Boost),
    (h.holdEnd = .duration remaining → remaining ≤ m → h.lower m = none) ∧
    (h.holdEnd = .duration remaining → m < remaining →
      h.lower m = some { h with holdEnd := .duration (remaining - m) }) ∧
    (h.holdEnd = .untilNextPoint ∨ h.holdEnd = .indefinite → h.lower m = some h) ∧
    (b.remaining ≤ m → b.lower m = none) ∧
    (m < b.remaining → b.lower m = some { b with remaining := b.remaining - m }))

/-- A claim lapses at a second event: it is free, and a notice goes to its former holder only.
A HOLD or a BOOST of one remaining minute expires at a minute event with the arbiter idle: it is gone from the stack
in the same command and OVERRIDE_EXPIRED names it to both ports.
A unit whose last report reaches stale_age or lost_age at a second event: its freshness, its zone's measurement
and its notices, a STALE unit that becomes LOST with UNIT_LOST.
Rests on the model's choices of logs 1, 3, 4, 6, 12 and 32. -/
def Obligations.CountsOfClaimsOverridesAndUnitsRunOut : Prop :=
  (∀ (c : ClaimIx) (h : Held) (s : Machine.State), s.store.claims[c] = some h → h.frozen = false → h.remaining ≤ 1 →
    ¬ s.asksFor h.holder c → s.clock.seconds < 59 →
    ∃ t, exec (.claimLapse c) s = .next t ∧ exec .secondEvent s = .next t ∧ t.store.claims[c] = none ∧
      ((s.port h.holder).mask[3] = true → (t.port h.holder).noticesLost = false →
        ⟨.claimLapsed, .port h.holder, t.now, [BitVec.ofNat 8 c.val]⟩ ∈ (t.port h.holder).notices) ∧
      ∀ n ∈ (t.port h.holder.other).notices, n ∈ (s.port h.holder.other).notices ∨
        n.subject ≠ .port h.holder) ∧
  (∀ (z : Zone) (h : Hold) (s : Machine.State), s.store.overrides[z].hold = some h → h.holdEnd = .duration 1 →
    59 ≤ s.clock.seconds → s.arbiterIdle →
    ∃ t, exec (.overrideCountExpiry z) s = .next t ∧ exec .secondEvent s = .next t ∧
      t.store.overrides[z].hold = none ∧
      ∀ p, (s.port p).mask[2] = true → (t.port p).noticesLost = false →
        ⟨.overrideExpired, .zone z, t.now, [0, 0, encPort h.owner]⟩ ∈ (t.port p).notices) ∧
  (∀ (z : Zone) (b : Boost) (s : Machine.State), s.store.overrides[z].boost = some b → b.remaining ≤ 1 →
    59 ≤ s.clock.seconds → s.arbiterIdle →
    ∃ t, exec (.overrideCountExpiry z) s = .next t ∧ exec .secondEvent s = .next t ∧
      t.store.overrides[z].boost = none ∧
      ∀ p, (s.port p).mask[2] = true → (t.port p).noticesLost = false →
        ⟨.overrideExpired, .zone z, t.now, [1, 0, byteOf b.owner.val]⟩ ∈ (t.port p).notices) ∧
  (∀ (u : UnitIx) (r : UnitRecord) (last : Nat) (s : Machine.State), s.report.registry[u] = some r →
    r.lastReport = some last → s.clock.seconds < 59 → r.freshness = .stale →
    let age := s.ticksAt ((s.clock.secondsTaken + 1) * 32768) / 32768 - last
    s.taken.lostAge ≤ age →
    ∃ t, exec (.unitFreshnessAging u) s = .next t ∧ exec .secondEvent s = .next t ∧
      t.report.registry[u] = some { r with freshness := .lost } ∧
      ∀ p, (s.port p).mask[7] = true → (t.port p).noticesLost = false →
        ⟨.unitLost, .unit u, t.now, [r.address, numberOrNone r.zone] ++ secondsOf age⟩ ∈ (t.port p).notices) ∧
  (∀ (u : UnitIx) (r : UnitRecord) (last : Nat) (s : Machine.State), s.report.registry[u] = some r →
    r.lastReport = some last → s.clock.seconds < 59 →
    let age := s.ticksAt ((s.clock.secondsTaken + 1) * 32768) / 32768 - last
    r.freshness = .fresh → s.taken.staleAge ≤ age → s.taken.staleAge < s.taken.lostAge →
    ∃ t, exec (.unitFreshnessAging u) s = .next t ∧ exec .secondEvent s = .next t ∧
      t.report.registry[u] = some { r with freshness := if s.taken.lostAge ≤ age then .lost else .stale } ∧
      (∀ z, r.zone = some z →
        (t.zones[z].measured, t.zones[z].measureState, t.zones[z].measureUnit) = measurement z t) ∧
      ∀ p, (t.port p).noticesLost = false →
        ((s.port p).mask[6] = true →
          ⟨.unitStale, .unit u, t.now, [r.address, numberOrNone r.zone] ++ secondsOf age⟩ ∈ (t.port p).notices) ∧
        ((s.port p).mask[7] = true → s.taken.lostAge ≤ age →
          ⟨.unitLost, .unit u, t.now, [r.address, numberOrNone r.zone] ++ secondsOf age⟩ ∈ (t.port p).notices))

/-! ### The Demand Unit -/

/-- A loop event: every zone's emergency, demand and call state; served once for the whole list; the Firing
Controller's picture; then the loop moves of every zone, issued by requested position and deadband. The other fields of
the zones stay, but flow_ready, which the valves write. Without an entry into frost emergency nothing but the loop moves
touches a valve. Zone by zone, an entry into frost emergency places an urgent MOVE_TO 100 in every channel of the zone,
raises FROST_EMERGENCY at both ports and tells the Firing Controller, at once or after the call update.
Rests on the model's choices of logs 1, 8, 23, 31, 33, 34, 41 and 48. -/
def Obligations.ALoopEventEvaluatesEveryZone : Prop :=
  ∀ s : Machine.State, ∃ u t, exec .loopEvent s = .next t ∧ t = State.loopMoved allZones u ∧
    let due := s.demand.loopStart + s.taken.loopPeriod * 32768
    t.clock = { s.clock with ticks := s.ticksAt due } ∧ t.demand.loopStart = due ∧ t.demand.loopRan = true ∧
    t.demand.zoneEvents = s.demand.zoneEvents ∧ t.demand.servedRecompute = s.demand.servedRecompute ∧
    (∀ z : Zone,
      (t.zones[z].frostEmergency, t.zones[z].demand, t.zones[z].callState) = demandAfter s.taken s.zones[z] ∧
      t.zones[z].served = t.isServed z ∧
      t.zones[z] = { s.zones[z] with
        frostEmergency := t.zones[z].frostEmergency
        demand := t.zones[z].demand
        callState := t.zones[z].callState
        served := t.zones[z].served
        flowReady := t.zones[z].flowReady } ∧
      u.zones[z] = { t.zones[z] with flowReady := u.zones[z].flowReady } ∧
      u.firing.picture.served[z] = u.zones[z].served ∧
      t.firing.picture.served[z] = t.zones[z].served ∧ t.firing.picture.demand[z] = t.zones[z].demand ∧
      t.firing.picture.frost[z] = t.zones[z].frostEmergency) ∧
    t.firing.picture.list = t.demand.heatList ∧ u.demand = { t.demand with lastIssued := u.demand.lastIssued } ∧
    ((∀ z : Zone, frostEntry s.zones[z] s.taken.frostFloor = false) →
      u.valves = s.valves ∧ u.demand.lastIssued = s.demand.lastIssued ∧
      (∀ z : Zone, u.zones[z].flowReady = s.zones[z].flowReady) ∧
      t.demand.heatList = (s.demand.heatList.filter fun z => decide (s.zones[z].callState = .idle) ||
          decide (t.zones[z].callState = .calling)) ++
        allZones.filter fun z => decide (s.zones[z].callState = .idle) &&
          decide (t.zones[z].callState = .calling)) ∧
    (∃ (first : Bool) (before : Nat → Machine.State),
      before 0 = { s with clock := t.clock, bus := t.bus, demand := (before 0).demand } ∧
      (before 0).demand.lastIssued = s.demand.lastIssued ∧
      (∀ z : Zone,
        let entered := State.frostEntered z (before z.val)
        let after := if frostEntry s.zones[z] s.taken.frostFloor then
            if first then frostEvent entered else entered
          else before z.val
        (before (z.val + 1)).sameValves after ∧
        before (z.val + 1) = { after with zones := (before (z.val + 1)).zones, demand := (before (z.val + 1)).demand }) ∧
      u.demand.lastIssued = (before 16).demand.lastIssued ∧
      (∀ z : Zone, u.zones[z].flowReady = (before 16).zones[z].flowReady) ∧
      let called := callUpdate { (before 16) with zones := u.zones, demand := u.demand }
      let late := if first then [] else allZones.filter fun z => frostEntry s.zones[z] s.taken.frostFloor
      u = late.foldl (fun w _ => frostEvent w) called) ∧
    (∀ (z : Zone) (q : Port), frostEntry s.zones[z] s.taken.frostFloor = true → (s.port q).mask[20] = true →
      (t.port q).noticesLost = false → ⟨.frostEmergency, .zone z, t.now, []⟩ ∈ (t.port q).notices) ∧
    t.store = s.store ∧ t.arbiter = s.arbiter ∧ t.contacts = s.contacts ∧ t.report = s.report ∧
    t.link = s.link ∧ t.written = s.written ∧ t.taken = s.taken ∧
    t.bus = { s.bus with backoffReg := t.bus.backoffReg }

/-- A zone event that waits: its zone evaluated, served recomputed for every zone, then the loop moves of that zone and
of the others whose served value changed; the call state of the other zones stays. An entry into frost emergency places
an urgent MOVE_TO 100 in every channel of the zone, raises FROST_EMERGENCY at both ports and tells the Firing
Controller, before or after the call update, all before the loop moves.
The recomputation after a change of served_limit: served for the whole list, the loop moves of the zones whose served
value changed, and no call state.
Rests on the model's choices of logs 8, 23, 33, 41 and 48. -/
def Obligations.ZonesAreEvaluatedAndServed : Prop :=
  (∀ (z : Zone) (s : Machine.State), z ∈ s.demand.zoneEvents →
    ∃ u t, exec (.zoneEvent z) s = .next t ∧
      t = State.loopMoved (z :: allZones.filter fun y => y ≠ z ∧ s.zones[y].served ≠ u.zones[y].served) u ∧
      t.demand.zoneEvents = s.demand.zoneEvents.filter (· ≠ z) ∧ t.demand.loopStart = s.demand.loopStart ∧
      (t.zones[z].frostEmergency, t.zones[z].demand, t.zones[z].callState) = demandAfter s.taken s.zones[z] ∧
      (∀ y : Zone, y ≠ z → t.zones[y] = { s.zones[y] with
        served := t.zones[y].served, flowReady := t.zones[y].flowReady }) ∧
      t.zones[z] = { s.zones[z] with
        frostEmergency := t.zones[z].frostEmergency
        demand := t.zones[z].demand
        callState := t.zones[z].callState
        served := t.zones[z].served
        flowReady := t.zones[z].flowReady } ∧
      (∀ y : Zone, u.zones[y] = { t.zones[y] with flowReady := u.zones[y].flowReady } ∧
        t.zones[y].served = t.isServed y ∧ t.firing.picture.served[y] = t.zones[y].served ∧
        t.firing.picture.demand[y] = t.zones[y].demand) ∧
      (frostEntry s.zones[z] s.taken.frostFloor = false →
        u.valves = s.valves ∧ u.demand.lastIssued = s.demand.lastIssued) ∧
      (frostEntry s.zones[z] s.taken.frostFloor = true →
        let entered := State.frostEntered z { s with demand := { s.demand with
          zoneEvents := u.demand.zoneEvents, choices := u.demand.choices } }
        u.sameValves entered ∧
        (∃ first : Bool,
          let called := callUpdate
            { (if first then frostEvent entered else entered) with zones := u.zones, demand := u.demand }
          u = if first then called else frostEvent called) ∧
        ∀ q : Port, (∃ later, (t.port q).notices = (entered.port q).notices ++ later) ∧
          ((s.port q).mask[20] = true → (t.port q).noticesLost = false →
            ⟨.frostEmergency, .zone z, s.now, []⟩ ∈ (t.port q).notices)) ∧
      t.demand.heatList = (if frostEntry s.zones[z] s.taken.frostFloor then z :: s.demand.heatList.filter (· ≠ z)
        else if s.zones[z].callState = t.zones[z].callState then s.demand.heatList
        else if t.zones[z].callState = .calling then s.demand.heatList ++ [z]
        else s.demand.heatList.filter (· ≠ z)) ∧
      t.clock = s.clock ∧ t.store = s.store ∧ t.arbiter = s.arbiter ∧ t.contacts = s.contacts ∧
      t.report = s.report ∧ t.link = s.link ∧ t.written = s.written ∧ t.taken = s.taken ∧ t.bus = s.bus) ∧
  (∀ s : Machine.State, s.demand.servedRecompute = true →
    ∃ u t, exec .servedRecomputation s = .next t ∧
      t = State.loopMoved (allZones.filter fun y => s.zones[y].served ≠ u.zones[y].served) u ∧
      u.valves = s.valves ∧ u.demand = { s.demand with servedRecompute := false } ∧
      (∀ z : Zone, u.zones[z] = { s.zones[z] with served := s.isServed z }) ∧
      t.demand.servedRecompute = false ∧
      t.demand.heatList = s.demand.heatList ∧ t.demand.zoneEvents = s.demand.zoneEvents ∧
      (∀ z : Zone, t.zones[z].served = s.isServed z ∧ t.firing.picture.served[z] = s.isServed z ∧
        t.zones[z] = { s.zones[z] with served := t.zones[z].served, flowReady := t.zones[z].flowReady }) ∧
      t.clock = s.clock ∧ t.store = s.store ∧ t.arbiter = s.arbiter ∧ t.contacts = s.contacts ∧
      t.report = s.report ∧ t.link = s.link ∧ t.bus = s.bus)

/-- The choice of a zone's measurement in its five steps; demand with and without a measurement, hysteresis, the
thresholds of frost emergency, the requested position and the deadband, as their rules give them. -/
def Obligations.DemandAndCallFollowTheirTables : Prop :=
  (∀ (z : Zone) (s : Machine.State),
    let eligible := fun (f : Freshness) (u : UnitIx) => ∃ r, s.report.registry[u] = some r ∧
      (∃ role, r.state = .active z role) ∧ r.faulty = false ∧ r.freshness = f
    let lowest := fun (f : Freshness) (u : UnitIx) => eligible f u ∧ ∀ v : UnitIx, v < u → ¬ eligible f v
    let chosen := fun (m : MeasureState) (u : UnitIx) =>
      measurement z s = ((s.report.registry[u]).bind (·.lastTemp), m, some u)
    let primary := fun (f : Freshness) (u : UnitIx) => s.zones[z].primaryUnit = some u ∧ eligible f u
    (∀ u, primary .fresh u → chosen .fresh u) ∧
    ((∀ u, ¬ primary .fresh u) → ∀ u, lowest .fresh u → chosen .fresh u) ∧
    ((∀ u, ¬ eligible .fresh u) →
      (∀ u, primary .stale u → chosen .aged u) ∧
      ((∀ u, ¬ primary .stale u) → ∀ u, lowest .stale u → chosen .aged u) ∧
      ((∀ u, ¬ eligible .stale u) → measurement z s = (none, .blind, none)))) ∧
  (∀ (z : ZoneRecord) (floor : Int) (band blind : Nat),
    (z.serviceMode = .unused → ordinaryDemand z floor band blind = 0) ∧
    (z.serviceMode ≠ .unused → z.measureState = .blind →
      ordinaryDemand z floor band blind = if floor < z.resolvedTarget then blind else 0) ∧
    (∀ t, z.serviceMode ≠ .unused → z.measureState ≠ .blind → z.measured = some t →
      ordinaryDemand z floor band blind = demandOf z.resolvedTarget t band) ∧
    (frostEntry z floor = true ↔ z.frostEmergency = false ∧ (z.serviceMode = .inService ∨ z.serviceMode = .off) ∧
      (z.measureState = .fresh ∨ z.measureState = .aged) ∧ ∃ t, z.measured = some t ∧ t ≤ floor - 10) ∧
    (frostExit z floor = true ↔ z.frostEmergency = true ∧
      (z.serviceMode = .unused ∨ z.measureState = .blind ∨ ∃ t, z.measured = some t ∧ floor + 5 ≤ t))) ∧
  (∀ (resolved measured : Int) (band : Nat), 0 < band →
    (resolved ≤ measured → demandOf resolved measured band = 0) ∧
    (measured + band ≤ resolved → demandOf resolved measured band = 100) ∧
    (measured < resolved → resolved < measured + band →
      (demandOf resolved measured band : Int) * (2 * band) ≤ 200 * (resolved - measured) + band ∧
      200 * (resolved - measured) + band < ((demandOf resolved measured band : Int) + 1) * (2 * band))) ∧
  (∀ d on off : Nat, off + 5 ≤ on →
    (on ≤ d → nextCall .idle d on off = .calling) ∧ (d < on → nextCall .idle d on off = .idle) ∧
    (d ≤ off → nextCall .calling d on off = .idle) ∧ (off < d → nextCall .calling d on off = .calling)) ∧
  (∀ (z : ZoneRecord) (lo hi : Nat), lo < hi → z.demand ≤ 100 →
    (z.served = false ∨ z.serviceMode = .unused → requestedPosition z lo hi = 0) ∧
    (z.served = true → z.serviceMode ≠ .unused →
      lo ≤ requestedPosition z lo hi ∧ requestedPosition z lo hi ≤ hi ∧
      (requestedPosition z lo hi - lo) * 200 ≤ 2 * z.demand * (hi - lo) + 100 ∧
      2 * z.demand * (hi - lo) + 100 < (requestedPosition z lo hi - lo + 1) * 200)) ∧
  (∀ p band : Nat, worthIssuing none p band = true) ∧
  ∀ l p band : Nat, worthIssuing (some l) p band = true ↔
    (l + band ≤ p ∨ p + band ≤ l) ∨ ((p = 0 ∨ p = 100) ∧ p ≠ l)

/-! ### The contact inputs -/

/-- A sample event: every input's working fields as its settings and its level give them; beside them only the
window orders' effects, and the notices of accepted edges at each port that loses none.
An input's delay runs out at a sample that accepts no edge of it: its timer stops and its order is raised.
Rests on the model's choices of logs 1, 3, 4, 16 and 31. -/
def Obligations.ContactSamplesAreJudged : Prop :=
  (∀ (levels : BitVec 16) (s : Machine.State), s.arbiterSound →
    ∃ t, exec (.sampleEvent levels) s = .next t ∧
      t.clock = { s.clock with ticks := s.ticksAt ((s.contacts.samples + 1) * 8192) } ∧
      t.contacts.samples = s.contacts.samples + 1 ∧
      (∀ z : Zone, t.contacts.inputs[z] =
        inputAfter s.taken.contacts[z] (levels.getLsbD z.val) s.contacts.inputs[z]) ∧
      ((∀ z : Zone, (t.contacts.inputs[z]).windowAsserted = (s.contacts.inputs[z]).windowAsserted) →
        t.contacts.pendingOrders = s.contacts.pendingOrders ∧ t.arbiter = s.arbiter ∧ t.store = s.store ∧
          t.zones = s.zones) ∧
      (∀ (z : Zone) (p : Port), (t.contacts.inputs[z]).stableState ≠ (s.contacts.inputs[z]).stableState →
        (if (t.contacts.inputs[z]).stableState = .isOpen then s.taken.contacts[z].openEdgeNotice
          else s.taken.contacts[z].closeEdgeNotice) = true →
        (s.port p).mask[4] = true → (t.port p).noticesLost = false →
        ⟨.contactChanged, .zone z, t.now, [(t.contacts.inputs[z]).stableState.code]⟩ ∈ (t.port p).notices) ∧
      t.store = { s.store with overrides := t.store.overrides } ∧
      State.onlyStoreAndTargets { s with
        clock := t.clock
        contacts := t.contacts
        bus := { s.bus with backoffReg := t.bus.backoffReg } } t) ∧
  (∀ (z : Zone) (levels : BitVec 16) (e : Nat) (s : Machine.State), s.taken.contacts[z].enable = true →
    (s.contacts.inputs[z]).openTimer = some e → 4 * s.taken.contacts[z].windowDelay ≤ e + 1 →
    readContact s.taken.contacts[z].polarity (levels.getLsbD z.val) = (s.contacts.inputs[z]).stableState →
    ∃ t, exec (.windowDelayExpiry z levels) s = .next t ∧ exec (.sampleEvent levels) s = .next t ∧
      (t.contacts.inputs[z]).openTimer = none ∧ (t.contacts.inputs[z]).windowAsserted = true ∧
      ((s.contacts.inputs[z]).windowAsserted = true → s.contacts.pendingOrders = [] →
        (∀ y : Zone, y ≠ z → s.taken.contacts[y].enable = false) →
        t.contacts.pendingOrders = [] ∧ t.store = s.store ∧ t.arbiter = s.arbiter) ∧
      ((s.contacts.inputs[z]).windowAsserted = false → s.arbiterIdle → s.contacts.pendingOrders = [] →
        s.store.overrides[z].window = false → (∀ y : Zone, y ≠ z → s.taken.contacts[y].enable = false) →
        t.store.overrides[z].window = true ∧ t.arbiter.carrying = some ⟨.window z .push, .done⟩ ∧ t.resolvedAt z))

/-- A window order raised: it cancels with a waiting order of its zone, is placed when nothing waits, or is put
at the tail of the list.
Rests on the model's choices of log 4. -/
def Obligations.AWindowOrderCancelsIsPlacedOrWaits : Prop :=
  ∀ (z : Zone) (kind : OrderKind) (s : Machine.State),
    let t := raiseOrder z kind s
    ((∃ o ∈ s.contacts.pendingOrders, o.zone = z) →
      t.contacts.pendingOrders = s.contacts.pendingOrders.filter (fun o => o.zone ≠ z) ∧ t.arbiter = s.arbiter ∧
        t.store = s.store) ∧
    ((∀ o ∈ s.contacts.pendingOrders, o.zone ≠ z) →
      ((s.contacts.pendingOrders ≠ [] ∨ s.arbiter.waiting.contact.isSome = true) →
        t.contacts.pendingOrders = s.contacts.pendingOrders ++ [⟨z, kind⟩] ∧ t.arbiter = s.arbiter ∧
          t.store = s.store) ∧
      (s.contacts.pendingOrders = [] → s.arbiter.waiting.contact = none → s.arbiter.carrying.isSome = true →
        t.contacts.pendingOrders = [] ∧ t.store = s.store ∧
          t.arbiter = { s.arbiter with waiting := { s.arbiter.waiting with contact := some (.window z kind) } }) ∧
      (s.contacts.pendingOrders = [] → s.arbiterIdle →
        t.contacts.pendingOrders = [] ∧
          t.arbiter = ⟨⟨none, none, none, none, none⟩, some ⟨.window z kind, .done⟩, .contact⟩ ∧
          t.store.overrides[z] = { s.store.overrides[z] with window := kind == .push })) ∧
    (∀ y : Zone, t.contacts.inputs[y] =
      if y = z then { s.contacts.inputs[z] with windowAsserted := kind == .push } else s.contacts.inputs[y])

/-! ### The room bus as receiver -/

/-- The line: FREE 1 ms (33 periods) after GAP was entered, BUSY with a new frame at a START, GAP at the STOP of a
frame that is not the part's own or has been admitted; nothing while the bus-error state is not NORMAL.
The end of a DEST byte: a slot is reserved for the part's own address and for a broadcast when the queue has
room, else NACK or nothing; any other frame is followed without an answer. Hold-off is judged by the new count. That a
HOLD_OFF placed so takes the place of a running deferral wait of the outbound head is the model's choice (log 45).
Rests on the model's choices of logs 1, 2, 29, 43 and 45. -/
def Obligations.TheLineIsFollowedAndAnAddressedFrameReserves : Prop :=
  (∀ s : Machine.State,
    (s.bus.errState = .normal →
      (s.bus.line = .gap → ∃ v,
        exec .busFree s = .next { s with
          clock := { s.clock with ticks := s.ticksAt (s.bus.gapSince + 33) }
          bus := { s.bus with line := .free, backoffReg := v } }) ∧
      (s.bus.line ≠ .busy →
        exec .startSeen s = .next { s with
          bus := { s.bus with line := .busy, rx := some ⟨.awaitingDest, [], s.taken.ownAddress⟩ } }) ∧
      (∀ f, s.bus.rx = some f → f.mode = .notOwn ∨ f.mode = .admitted →
        exec .stopSeen s = .next { s with
          bus := { s.bus with line := .gap, gapSince := s.clock.ticks, rx := none } })) ∧
    (s.bus.errState ≠ .normal →
      exec .busFree s = .next s ∧ exec .startSeen s = .next s ∧ exec .stopSeen s = .next s)) ∧
  (∀ (dest : Byte) (f : RxFrame) (s : Machine.State), s.bus.errState = .normal → s.bus.rx = some f →
    f.mode = .awaitingDest →
    let own := s.taken.ownAddress
    let kept := fun mode answer (u : Machine.State) =>
      { u with bus := { u.bus with rx := some ⟨mode, [dest], own⟩, lastAck := answer } }
    ((dest = own ∨ dest = 0) → s.receiveCount < 16 →
      (s.holdOffStays (s.report.queue.length + 1) →
        exec (.destReservation dest) s =
          .next (kept .reserved (slotAnswer dest true) { s with report := { s.report with reserved := true } })) ∧
      (s.report.holdOff = .flowing → s.taken.holdoffLevel ≤ s.report.queue.length + 1 → s.bus.control = none →
        ∃ d, exec (.destReservation dest) s =
          .next (kept .reserved (slotAnswer dest true) { s with
            report := { s.report with reserved := true, holdOff := .held }
            bus := { s.bus with control := some ⟨.holdOff, 0⟩, controlBackoff := none, deferral := d } }) ∧
          (s.bus.attempt = none → (∀ x, s.bus.deferral ≠ some ⟨.control, x⟩) →
            d = some ⟨.control, s.deferralEnd⟩))) ∧
    ((dest = own ∨ dest = 0) → 16 ≤ s.receiveCount →
      exec (.destReservation dest) s = .next (kept .notOwn (slotAnswer dest false) s)) ∧
    (dest ≠ own → dest ≠ 0 → exec (.destReservation dest) s = .next (kept .notOwn .undriven s)))

/-- SRC, KIND, LEN and payload bytes: an accepted byte of a frame with a reservation is kept and acknowledged, any
other rewinds it; of a frame not the part's own only SRC is kept; after an admitted frame nothing is.
The CRC byte of a whole frame: a match fills the reserved slot at the tail of the queue with its record and
the count of second events; a mismatch rewinds the frame.
A short frame: its reservation is released, and the line goes to GAP or, at a repeated START, to a new frame;
no notice and no count. A reservation released is a new count, by which hold-off is judged: RESUME at resume_level. -/
def Obligations.ReceivedFramesAreJudgedByteByByte : Prop :=
  (∀ (b : Byte) (f : RxFrame) (s : Machine.State), s.bus.errState = .normal → s.bus.rx = some f →
    let kept := { s with bus := { s.bus with
      rx := some { f with bytes := f.bytes ++ [b] }, lastAck := slotAnswer (f.bytes.headD 0) true } }
    let rewound := { s with
      report := { s.report with reserved := false }
      bus := { s.bus with
        rx := some { f with mode := .notOwn, bytes := f.bytes ++ [b] }
        lastAck := slotAnswer (f.bytes.headD 0) false } }
    let judged := fun ok : Prop =>
      (ok → exec (.receivedByte b) s = .next kept) ∧
      (¬ ok → (s.holdOffStays s.report.queue.length → exec (.receivedByte b) s = .next rewound) ∧
        ∃ t, exec (.receivedByte b) s = .next t ∧ t.report.reserved = false ∧ t.report.queue = s.report.queue ∧
          t.bus.rx = rewound.bus.rx ∧ t.bus.lastAck = rewound.bus.lastAck ∧
          State.holdOffJudged s.report.queue.length s t ∧ State.onlyBus s t)
    (f.mode = .reserved →
      (∀ d, f.bytes = [d] → judged (0x08 ≤ b.toNat ∧ b.toNat ≤ 0x77 ∧ b ≠ f.own)) ∧
      (∀ d src, f.bytes = [d, src] → judged (b.toNat ≤ 3)) ∧
      (∀ d src kind, f.bytes = [d, src, kind] → judged (lengthFits kind b)) ∧
      (∀ d src kind len rest, f.bytes = d :: src :: kind :: len :: rest → rest.length < len.toNat → judged True)) ∧
    (f.mode = .notOwn → exec (.receivedByte b) s = .next { s with bus := { s.bus with
      rx := some { f with bytes := if f.bytes.length = 1 then f.bytes ++ [b] else f.bytes }, lastAck := .undriven } }) ∧
    (f.mode = .admitted → exec (.receivedByte b) s = .next { s with bus := { s.bus with lastAck := .undriven } })) ∧
  (∀ (crc d src kind len : Byte) (payload : List Byte) (own : Byte) (body : Payload) (s : Machine.State),
    s.bus.errState = .normal → s.bus.rx = some ⟨.reserved, d :: src :: kind :: len :: payload, own⟩ →
    payload.length = len.toNat → payloadOf kind payload = some body →
    let bytes := d :: src :: kind :: len :: payload
    (crc = crc8 bytes →
      exec (.frameReceived crc) s = .next { s with
        report := { s.report with queue := s.report.queue ++ [⟨src, body, s.now⟩], reserved := false }
        bus := { s.bus with rx := some ⟨.admitted, bytes, own⟩, lastAck := slotAnswer d true } }) ∧
    (crc ≠ crc8 bytes →
      (s.holdOffStays s.report.queue.length →
        exec (.frameReceived crc) s = .next { s with
          report := { s.report with reserved := false }
          bus := { s.bus with rx := some ⟨.notOwn, bytes, own⟩, lastAck := slotAnswer d false } }) ∧
      ∃ t, exec (.frameReceived crc) s = .next t ∧ t.report.reserved = false ∧ t.report.queue = s.report.queue ∧
        State.holdOffJudged s.report.queue.length s t ∧ State.onlyBus s t)) ∧
  (∀ (start : Bool) (f : RxFrame) (s : Machine.State), s.bus.errState = .normal → s.bus.rx = some f →
    let ended := fun u : Machine.State =>
      if start then
        { u with bus := { u.bus with line := .busy, rx := some ⟨.awaitingDest, [], s.taken.ownAddress⟩ } }
      else { u with bus := { u.bus with line := .gap, gapSince := s.clock.ticks, rx := none } }
    (f.mode ≠ .reserved → exec (.shortFrame start) s = .next (ended s)) ∧
    (f.mode = .reserved →
      (s.holdOffStays s.report.queue.length → exec (.shortFrame start) s =
        .next (ended { s with report := { s.report with reserved := false } })) ∧
      ∃ t, exec (.shortFrame start) s = .next t ∧ t.report.reserved = false ∧ t.report.queue = s.report.queue ∧
        t.portA = s.portA ∧ t.portB = s.portB ∧ t.bus.errorCount = s.bus.errorCount ∧
        State.holdOffJudged s.report.queue.length s t ∧ State.onlyBus s t))

/-- A bus error with the line BUSY: counted up to 65535, noticed with SRC when it has been received or sent, a
reservation released, the part's own attempt failed, and the line as the START or STOP leaves it.
A stuck bus and the way back: STUCK with its count and notice, RECOVERING when both wires are high, STUCK again
when one falls or the SYNC is spoilt at any moment before the recovery is complete, NORMAL with the line in GAP when
the SYNC is made: a START, the eight low bits of the byte 0x00, the acknowledge slot released, a STOP; a spoilt SYNC
releases both wires. Waits are held: they end later by the time the bus was not NORMAL.
Rests on the model's choices of logs 1, 2, 13, 29, 39 and 43. -/
def Obligations.BusErrorsAreNoticedAndRecovered : Prop :=
  (∀ (start : Bool) (carried : Nat) (s : Machine.State), s.bus.errState = .normal → s.bus.line = .busy →
    ∃ t, exec (.busError start carried) s = .next t ∧
      t.bus.errorCount = min 65535 (s.bus.errorCount + 1) ∧ t.report.queue = s.report.queue ∧
      t.bus.attempt = none ∧ t.bus.line = (if start then .busy else .gap) ∧
      t.bus.rx = (if start then some ⟨.awaitingDest, [], s.taken.ownAddress⟩ else none) ∧
      (∀ f, s.bus.rx = some f → f.mode = .reserved → t.report.reserved = false) ∧
      (s.bus.attempt = none → t.bus.outbound = s.bus.outbound) ∧
      (∀ src head rest, s.bus.attempt = some ⟨.outbound, src⟩ → s.bus.outbound = head :: rest →
        t.bus.outbound = if head.failures + 1 < 8 then ⟨head.body, head.failures + 1⟩ :: rest else rest) ∧
      (∀ p, (s.port p).mask[12] = true → (t.port p).noticesLost = false →
        ⟨.busError, .address (match s.bus.attempt with
            | some a => if 2 ≤ carried then a.src else 0
            | none => match s.bus.rx with
              | some f => (f.bytes[1]?).getD 0
              | none => 0), s.now, [0] ++ be16 (BitVec.ofNat 16 t.bus.errorCount)⟩ ∈ (t.port p).notices) ∧
      State.onlyBus s t) ∧
  (∀ s : Machine.State,
    (∀ held, s.bus.errState = .normal →
      ∃ t, exec (.stuckBus held) s = .next t ∧ t.bus.errState = .stuck ∧ t.bus.stuckSince = s.clock.ticks ∧
        t.bus.errorCount = min 65535 (s.bus.errorCount + 1) ∧ t.bus.attempt = none ∧ t.bus.rx = none ∧
        t.report.queue = s.report.queue ∧
        (∀ f, s.bus.rx = some f → f.mode = .reserved → t.report.reserved = false) ∧
        (∀ p, (s.port p).mask[12] = true → (t.port p).noticesLost = false →
          ⟨.busError, .address 0, s.now, [1, HeldWire.code held] ++ be16 (BitVec.ofNat 16 t.bus.errorCount)⟩ ∈
            (t.port p).notices) ∧
        State.onlyBus s t) ∧
    (s.bus.errState = .stuck →
      exec .busWiresHigh s =
        .next { s with bus := { s.bus with errState := .recovering, highSince := s.clock.ticks } }) ∧
    (s.bus.errState = .recovering →
      exec .recoveryInterrupted s = .next { s with bus := { s.bus with errState := .stuck, syncing := false } } ∧
      (s.bus.syncing = true → exec (.sync true) s = .next s) ∧
      ∃ v, let at20 := { s with
          clock := { s.clock with ticks := s.ticksAt (s.bus.highSince + 656) }
          bus := { s.bus with backoffReg := v } }
        let begun : Machine.State := { at20 with bus := { at20.bus with syncing := true, line := .busy } }
        let spoilt : Machine.State := { at20 with bus := { at20.bus with errState := .stuck, syncing := false } }
        (s.bus.syncing = false → exec (.sync true) s = .next begun) ∧ exec (.sync false) s = .next spoilt ∧
        begun.sentOnLine = [.start] ++ List.replicate 8 (.bit false) ++ [.bit true, .stop] ∧
        (s.bus.attempt = none → spoilt.sentOnLine = [])) ∧
    (s.bus.errState = .recovering → s.bus.syncing = true →
      ∃ t, exec .syncComplete s = .next t ∧ t.bus.errState = .normal ∧ t.bus.syncing = false ∧
        t.bus.line = .gap ∧ t.bus.gapSince = s.clock.ticks ∧
        t.bus.controlBackoff = s.bus.controlBackoff.map (· + (s.clock.ticks - s.bus.stuckSince)) ∧
        t.bus.outboundBackoff = s.bus.outboundBackoff.map (· + (s.clock.ticks - s.bus.stuckSince)) ∧
        (∀ x, s.bus.deferral = some ⟨.outbound, x⟩ → s.bus.attempt = none → s.bus.control = none →
          s.bus.outbound ≠ [] → s.bus.outboundBackoff = none →
          t.bus.deferral = some ⟨.outbound, x + (s.clock.ticks - s.bus.stuckSince)⟩) ∧
        t.bus.errorCount = s.bus.errorCount ∧ t.bus.outbound = s.bus.outbound ∧ t.bus.control = s.bus.control ∧
        t = { s with bus := t.bus }))

/-! ### The room bus as sender -/

/-- An attempt begins when a frame is ready and the bus is free: the control slot goes ahead of the queue.
The end of an attempt by success or arbitration loss: a frame sent leaves its place, the line is in GAP, and the next
frame that is ready has its deferral_limit, of which the wait of a control frame placed meanwhile has begun; a frame that lost stays with its count, and the winner is followed.
The bytes an attempt sends, with their CRC, each from its most significant bit and with a released acknowledge slot,
between a START and a STOP.
Rests on the model's choices of logs 2, 14, 29 and 45. -/
def Obligations.AnAttemptBeginsAndEnds : Prop :=
  (∀ s : Machine.State, s.bus.errState = .normal → s.bus.line = .free → s.bus.attempt = none →
    let began := fun source => .next { s with bus := { s.bus with
      attempt := some ⟨source, s.taken.ownAddress⟩, line := .busy, deferral := none, rx := none } }
    ((s.bus.control).isSome = true → s.bus.controlBackoff = none → exec .attemptStart s = began .control) ∧
    (s.bus.control = none → s.bus.outbound ≠ [] → s.bus.outboundBackoff = none →
      exec .attemptStart s = began .outbound) ∧
    ((s.bus.control).isSome = true ∧ (s.bus.controlBackoff).isSome = true ∨
        s.bus.control = none ∧ (s.bus.outbound = [] ∨ (s.bus.outboundBackoff).isSome = true) →
      exec .attemptStart s = .next s)) ∧
  (∀ (src : Byte) (s : Machine.State),
    (∀ head rest, s.bus.attempt = some ⟨.outbound, src⟩ → s.bus.outbound = head :: rest →
      (∃ d, exec .attemptSuccess s = .next { s with bus := { s.bus with
          attempt := none, outbound := rest, outboundBackoff := none, deferral := d, line := .gap
          gapSince := s.clock.ticks, rx := none } } ∧
        (s.bus.errState = .normal → s.bus.control = none →
          d = if rest.isEmpty then none else some ⟨.outbound, s.deferralEnd⟩) ∧
        ∀ ends, s.bus.errState = .normal → s.bus.control.isSome = true → s.bus.controlBackoff = none →
          s.bus.deferral = some ⟨.control, ends⟩ → d = s.bus.deferral) ∧
      ∀ carried, ∃ t, exec (.arbitrationLoss carried) s = .next t ∧ t.bus.attempt = none ∧
        t.bus.outbound = s.bus.outbound ∧ t.bus.outboundBackoff = s.bus.outboundBackoff ∧
        t.bus.line = s.bus.line ∧ t.report.queue = s.report.queue ∧
        (carried = 0 → t.bus.rx = some ⟨.awaitingDest, [], s.taken.ownAddress⟩) ∧
        (2 ≤ carried → t.bus.rx = some ⟨.notOwn, [head.body.dest, src], s.taken.ownAddress⟩ ∧
          t.report = s.report) ∧
        t.portA = s.portA ∧ t.portB = s.portB ∧ State.onlyBus s t) ∧
    (∀ f, s.bus.attempt = some ⟨.control, src⟩ → s.bus.control = some f → s.bus.pendingControl = none →
      (∃ d, exec .attemptSuccess s = .next { s with bus := { s.bus with
          attempt := none, control := none, controlBackoff := none, deferral := d, line := .gap
          gapSince := s.clock.ticks, rx := none } } ∧
        (s.bus.errState = .normal →
          d = if s.bus.outbound.isEmpty || s.bus.outboundBackoff.isSome then none
            else some ⟨.outbound, s.deferralEnd⟩)) ∧
      ∀ carried, ∃ t, exec (.arbitrationLoss carried) s = .next t ∧ t.bus.attempt = none ∧
        (carried ≠ 1 → t.bus.control = s.bus.control) ∧ t.report.queue = s.report.queue ∧ State.onlyBus s t)) ∧
  (∀ (a : Attempt) (s : Machine.State),
    s.sentLevels a = ((s.sentBytes a).flatMap fun v =>
      [v.getLsbD 7, v.getLsbD 6, v.getLsbD 5, v.getLsbD 4, v.getLsbD 3, v.getLsbD 2, v.getLsbD 1, v.getLsbD 0, true]) ∧
    (s.bus.syncing = false → s.bus.attempt = some a →
      s.sentOnLine = [.start] ++ (s.sentLevels a).map .bit ++ [.stop])) ∧
  (∀ (src : Byte) (s : Machine.State),
    let framed := fun bytes : List Byte => bytes ++ [crc8 bytes]
    (∀ n, (s.bus.control = some ⟨.holdOff, n⟩ → s.sentBytes ⟨.control, src⟩ = framed [0, src, 0x04, 0]) ∧
      (s.bus.control = some ⟨.resume, n⟩ → s.sentBytes ⟨.control, src⟩ = framed [0, src, 0x05, 0])) ∧
    ∀ n rest,
      (∀ (z : Zone) target basis, s.bus.outbound = ⟨.announce z target basis, n⟩ :: rest →
        s.sentBytes ⟨.outbound, src⟩ = framed ([0, src, 0x06, 4, byteOf z.val] ++ tempBytes target ++
          [listed [Basis.base, .hold, .boost, .window, .floor] basis])) ∧
      (∀ dest (zone : Option Zone), s.bus.outbound = ⟨.joinAck dest zone, n⟩ :: rest →
        s.sentBytes ⟨.outbound, src⟩ = framed [dest, src, 0x07, 1, numberOrNone zone]) ∧
      ∀ dest reason, s.bus.outbound = ⟨.boostReply dest reason, n⟩ :: rest →
        s.sentBytes ⟨.outbound, src⟩ =
          framed [dest, src, 0x08, 1, listed [Reason.accepted, .locked, .zoneOff, .unknownUnit] reason])

/-- A failed attempt: of the control frame by deferral, a bus error or a stuck bus, of the outbound head by these and by
a NACK. The frame's count goes up and it waits a backoff taken from the register as it stands at the failure; at the
eighth failure it is dropped with SEND_FAILED. The frame that is then ready has its deferral wait, which ends
deferral_limit milliseconds later; a control frame that waits beside an attempt of the head goes on waiting, and its
failure by deferral leaves that attempt as it is. A backoff's end makes the frame ready again, but the head only with
the control slot empty.
Rests on the model's choices of logs 1, 2, 13, 29 and 45. -/
def Obligations.AFailedAttemptBacksOffOrDrops : Prop :=
  (∀ (f : ControlFrame) (s : Machine.State), s.bus.control = some f → s.bus.errState = .normal →
    let n := f.failures + 1
    (∀ deadline, s.bus.deferral = some ⟨.control, deadline⟩ → s.bus.line ≠ .free → s.bus.pendingControl = none →
      ∃ v t, let m := { s with
          clock := { s.clock with ticks := s.ticksAt deadline }, bus := { s.bus with backoffReg := v } }
        exec .deferralTimeout s = .next t ∧ State.controlAttemptFailed f m t ∧ t.bus.line = s.bus.line ∧
        t.bus.attempt = s.bus.attempt ∧
        t.clock = m.clock ∧ t.bus.backoffReg = v ∧ t.bus.deferral = t.nextDeferral none ∧
        State.toldOnly (.address 0) f.kind.kindByte n m t ∧ State.onlyBus s t) ∧
    (∀ src, s.bus.attempt = some ⟨.control, src⟩ → s.bus.pendingControl = none → s.noReservation →
      exec .attemptFailure s = .next s ∧
      (∀ start carried, s.bus.line = .busy → ∃ t, exec (.busError start carried) s = .next t ∧
        State.controlAttemptFailed f s t ∧ t.bus.attempt = none ∧ t.bus.deferral = t.nextDeferral none ∧
        State.toldOfDrop (.address 0) f.kind.kindByte n s t ∧ State.onlyBus s t) ∧
      ∀ held, ∃ t, exec (.stuckBus held) s = .next t ∧
        State.controlAttemptFailed f s t ∧ t.bus.attempt = none ∧ t.bus.deferral = none ∧
        State.toldOfDrop (.address 0) f.kind.kindByte n s t ∧ State.onlyBus s t) ∧
    (∀ ends, s.bus.controlBackoff = some ends → (∀ src, s.bus.attempt ≠ some ⟨.control, src⟩) →
      ∃ v d, exec (.backoffEnd .control) s = .next { s with
        clock := { s.clock with ticks := s.ticksAt ends }
        bus := { s.bus with backoffReg := v, controlBackoff := none, deferral := some ⟨.control, d⟩ } } ∧
        (s.bus.deferral = none → d = s.ticksAt ends + (s.taken.deferralLimit * 32768 + 999) / 1000)) ∧
    ∀ ends, s.bus.outboundBackoff = some ends →
      ∃ v d, exec (.backoffEnd .outbound) s = .next { s with
        clock := { s.clock with ticks := s.ticksAt ends }
        bus := { s.bus with backoffReg := v, outboundBackoff := none, deferral := d } } ∧
        ∀ w, d = some w → w.source = .control) ∧
  ∀ (head : OutFrame) (rest : List OutFrame) (s : Machine.State), s.bus.outbound = head :: rest →
    let n := head.failures + 1
    (∀ deadline, s.bus.errState = .normal → s.bus.deferral = some ⟨.outbound, deadline⟩ → s.bus.line ≠ .free →
      ∃ v t, let m := { s with
          clock := { s.clock with ticks := s.ticksAt deadline }, bus := { s.bus with backoffReg := v } }
        exec .deferralTimeout s = .next t ∧ State.headAttemptFailed head rest m t ∧ t.bus.line = s.bus.line ∧
        t.bus.attempt = s.bus.attempt ∧
        t.clock = m.clock ∧ t.bus.backoffReg = v ∧ t.bus.deferral = t.nextDeferral none ∧
        State.toldOnly head.body.subject head.body.kindByte n m t ∧ State.onlyBus s t) ∧
    (∀ src, s.bus.errState = .normal → s.bus.attempt = some ⟨.outbound, src⟩ →
      (head.body.dest ≠ 0 → ∃ t, exec .attemptFailure s = .next t ∧ State.headAttemptFailed head rest s t ∧
        t.bus.attempt = none ∧ t.bus.line = .gap ∧ t.bus.gapSince = s.clock.ticks ∧ t.clock = s.clock ∧
        t.bus.deferral = t.nextDeferral s.bus.deferral ∧
        State.toldOnly head.body.subject head.body.kindByte n s t ∧ State.onlyBus s t) ∧
      (∀ start carried, s.noReservation → s.bus.line = .busy → ∃ t, exec (.busError start carried) s = .next t ∧
        State.headAttemptFailed head rest s t ∧ t.bus.attempt = none ∧
        t.bus.deferral = t.nextDeferral s.bus.deferral ∧
        State.toldOfDrop head.body.subject head.body.kindByte n s t ∧ State.onlyBus s t) ∧
      ∀ held, s.noReservation → ∃ t, exec (.stuckBus held) s = .next t ∧
        State.headAttemptFailed head rest s t ∧ t.bus.attempt = none ∧
        t.bus.deferral = s.bus.deferral.filter (fun d => s.bus.control.isSome && d.source = .control) ∧
        State.toldOfDrop head.body.subject head.body.kindByte n s t ∧ State.onlyBus s t) ∧
    (∀ ends, s.bus.errState = .normal → s.bus.control = none → s.bus.outboundBackoff = some ends →
      s.bus.attempt = none →
      ∃ v d, exec (.backoffEnd .outbound) s = .next { s with
        clock := { s.clock with ticks := s.ticksAt ends }
        bus := { s.bus with backoffReg := v, outboundBackoff := none, deferral := some ⟨.outbound, d⟩ } } ∧
        (s.bus.deferral = none → d = s.ticksAt ends + (s.taken.deferralLimit * 32768 + 999) / 1000))

/-- The control slot: an order is placed in an empty slot, where its deferral wait starts at once, be it beside an
attempt of the outbound head; it cancels with the opposite kind, and waits while the slot
is in transmission, where two opposite orders cancel. At the end of the attempt a pending order is placed when the frame
has left the slot, sent or dropped, and cancels with it when it is still there.
The outbound queue, a head in transmission aside, which is neither changed nor displaced: an ANNOUNCE takes the place of
an unsent one of its zone, else the tail, else displaces the oldest ANNOUNCE, else is not queued. A reply takes the tail
or is not queued.
Rests on the model's choices of logs 14, 29 and 45. -/
def Obligations.FramesToSendArePlacedByTheirTables : Prop :=
  (∀ (k : ControlKind) (s : Machine.State),
    let t := orderControl k s
    (s.bus.control = none → t.bus.control = some ⟨k, 0⟩ ∧ t.bus.pendingControl = s.bus.pendingControl ∧
      (s.bus.errState = .normal → (∀ src, s.bus.attempt ≠ some ⟨.control, src⟩) →
        (∀ ends, s.bus.deferral ≠ some ⟨.control, ends⟩) → t.bus.deferral = some ⟨.control, s.deferralEnd⟩)) ∧
    (∀ f, s.bus.control = some f → (∀ src, s.bus.attempt ≠ some ⟨.control, src⟩) → f.kind ≠ k →
      t.bus.control = none ∧ t.bus.pendingControl = s.bus.pendingControl) ∧
    (∀ f src, s.bus.control = some f → s.bus.attempt = some ⟨.control, src⟩ → t.bus.control = some f ∧
      (s.bus.pendingControl = none → t.bus.pendingControl = some k) ∧
      ∀ k', s.bus.pendingControl = some k' → k' ≠ k → t.bus.pendingControl = none) ∧
    t = { s with bus := { s.bus with
      control := t.bus.control, pendingControl := t.bus.pendingControl, controlBackoff := t.bus.controlBackoff
      deferral := t.bus.deferral } }) ∧
  (∀ (f : ControlFrame) (k : ControlKind) (src : Byte) (s : Machine.State), s.bus.control = some f →
    s.bus.attempt = some ⟨.control, src⟩ → s.bus.pendingControl = some k → f.kind ≠ k →
    let slotAfter := fun (command : Instr) (frame : Option ControlFrame) => ∃ t, exec command s = .next t ∧
      t.bus.attempt = none ∧ t.bus.control = frame ∧ t.bus.controlBackoff = none ∧ t.bus.pendingControl = none ∧
      t.bus.outbound = s.bus.outbound ∧ State.onlyBus s t
    slotAfter .attemptSuccess (some ⟨k, 0⟩) ∧
    (∀ carried, (carried = 1 → 16 ≤ s.receiveCount ∨ s.holdOffStays (s.report.queue.length + 1)) →
      slotAfter (.arbitrationLoss carried) none) ∧
    (s.bus.errState = .normal → s.noReservation →
      let unsent := if f.failures + 1 < 8 then none else some ⟨k, 0⟩
      (∀ start carried, s.bus.line = .busy → slotAfter (.busError start carried) unsent) ∧
      ∀ held, slotAfter (.stuckBus held) unsent)) ∧
  (∀ (z : Zone) (target : Int) (basis : Basis) (sent waiting : List OutFrame) (s : Machine.State),
    s.bus.outbound = sent ++ waiting →
    (sent = [] ∧ ∀ src, s.bus.attempt ≠ some ⟨.outbound, src⟩) ∨
      (sent.length = 1 ∧ ∃ src, s.bus.attempt = some ⟨.outbound, src⟩) →
    let new : OutFrame := ⟨.announce z target basis, 0⟩
    let t := queueAnnounce z target basis s
    State.onlyBus s t ∧
    (∀ before (old : OutFrame) after ot ob, waiting = before ++ old :: after →
      old.body = .announce z ot ob → (∀ f ∈ before, ∀ x y, f.body ≠ .announce z x y) →
      t.bus.outbound = sent ++ before ++ ⟨.announce z target basis, old.failures⟩ :: after) ∧
    ((∀ f ∈ waiting, ∀ x y, f.body ≠ .announce z x y) →
      (s.bus.outbound.length < 8 → t.bus.outbound = s.bus.outbound ++ [new]) ∧
      (8 ≤ s.bus.outbound.length →
        (∀ before (old : OutFrame) after y ot ob, waiting = before ++ old :: after →
          old.body = .announce y ot ob → (∀ f ∈ before, f.isAnnounce = false) →
          t.bus.outbound = sent ++ before ++ after ++ [new] ∧
          ∀ p, (s.port p).mask[11] = true → (s.port p).notices.length < 32 →
            (t.port p).notices = (s.port p).notices ++
              [⟨.sendFailed, .zone y, s.now, [0x06, 1, BitVec.ofNat 8 old.failures]⟩]) ∧
        ((∀ f ∈ waiting, f.isAnnounce = false) → t.bus.outbound = s.bus.outbound ∧
          ∀ p, (s.port p).mask[11] = true → (s.port p).notices.length < 32 →
            (t.port p).notices = (s.port p).notices ++ [⟨.sendFailed, .zone z, s.now, [0x06, 2, 0]⟩])))) ∧
  ∀ (b : OutBody) (dest kind : Byte) (s : Machine.State),
    (∃ zone, b = .joinAck dest zone) ∧ kind = 0x07 ∨ (∃ reason, b = .boostReply dest reason) ∧ kind = 0x08 →
    (s.bus.outbound.length < 8 → (queueReply b s).bus.outbound = s.bus.outbound ++ [⟨b, 0⟩] ∧
      queueReply b s = { s with bus := { s.bus with
        outbound := (queueReply b s).bus.outbound, deferral := (queueReply b s).bus.deferral } }) ∧
    (8 ≤ s.bus.outbound.length → (queueReply b s).bus = s.bus ∧ State.onlyBus s (queueReply b s) ∧
      ∀ p, (s.port p).mask[11] = true → (s.port p).notices.length < 32 →
        ((queueReply b s).port p).notices = (s.port p).notices ++
          [⟨.sendFailed, .address dest, s.now, [kind, 2, 0]⟩])

/-! ### The Report Processor -/

/-- A TEMP at the head: discarded unless its source is an ACTIVE unit; outside the limits it counts against the
unit, with a notice, and the zone is measured anew when the unit has just become faulty; within them it is
written and the zone measured anew. The record leaves the queue in every case, and hold-off is judged by the new count:
at resume_level RESUME is ordered.
A JOIN at the head: from a new address the lowest FREE record is made PENDING with a UNIT_JOINED notice and a
JOIN_ACK of no zone, or with every record occupied REGISTRY_FULL is raised; from a known address an equal serial
brings a JOIN_ACK with the record's zone, another serial an ADDRESS_CONFLICT. The record leaves the queue. -/
def Obligations.TempAndJoinRecordsAreProcessedWhole : Prop :=
  (∀ (src : Byte) (temp : Int) (humidity : Option Byte) (arrival : Nat) (rest : List FrameRecord) (s : Machine.State),
    s.report.queue = ⟨src, .temp temp humidity, arrival⟩ :: rest →
    (∃ t, exec .tempRecord s = .next t ∧ t.report.queue = rest ∧
      State.holdOffJudged (s.receiveCount - 1) s t) ∧
    (s.holdOffStays (s.receiveCount - 1) →
      (unitAt src s = none → exec .tempRecord s = .next s.headGone) ∧
      ∀ (u : UnitIx) (r : UnitRecord), unitAt src s = some u → s.report.registry[u] = some r →
        (r.state = .pending → exec .tempRecord s = .next s.headGone) ∧
        ∀ (z : Zone) (role : Role), r.state = .active z role →
          let judged := fun (r' : UnitRecord) (t : Machine.State) =>
            exec .tempRecord s = .next t ∧
            t = { t.withNoticesOf s with
              report := { s.headGone.report with registry := s.report.registry.set u (some r') }
              zones := t.zones
              demand := { s.demand with zoneEvents := t.demand.zoneEvents } }
          let measured := fun t : Machine.State =>
            (∀ y : Zone, t.zones[y] = if y = z then { s.zones[z] with
              measured := (measurement z t).1
              measureState := (measurement z t).2.1
              measureUnit := (measurement z t).2.2 } else s.zones[y]) ∧
            t.demand.zoneEvents =
              if t.zones[z].measureState ≠ s.zones[z].measureState ∧ s.demand.loopRan = true ∧
                z ∉ s.demand.zoneEvents then s.demand.zoneEvents ++ [z] else s.demand.zoneEvents
          (s.taken.plausLow ≤ temp → temp ≤ s.taken.plausHigh →
            ∃ t, judged { r with
                lastTemp := some temp
                lastHumidity := humidity.filter fun h => decide (h.toNat ≤ 100)
                lastReport := some arrival
                freshness := .fresh
                implausibleCount := 0
                faulty := false } t ∧
              measured t ∧ t.portA = s.portA ∧ t.portB = s.portB) ∧
          (temp < s.taken.plausLow ∨ s.taken.plausHigh < temp →
            let n := min 3 (r.implausibleCount + 1)
            ∃ t, judged { r with implausibleCount := n, faulty := r.faulty || n == 3 } t ∧
              s.noticed ⟨.reportImplausible, .unit u, s.now,
                be16 (BitVec.ofInt 16 temp) ++ [BitVec.ofNat 8 n, encFlag (r.faulty || n == 3)]⟩ t ∧
              (n = 3 → r.faulty = false → measured t) ∧
              (n ≠ 3 ∨ r.faulty = true → t.zones = s.zones ∧ t.demand = s.demand)))) ∧
  (∀ (src unitType : Byte) (serial : BitVec 32) (arrival : Nat) (rest : List FrameRecord) (s : Machine.State),
    s.report.queue = ⟨src, .join unitType serial, arrival⟩ :: rest →
    (∃ t, exec .joinRecord s = .next t ∧ t.report.queue = rest ∧
      State.holdOffJudged (s.receiveCount - 1) s t) ∧
    (s.bus.outbound.length < 8 → s.holdOffStays (s.receiveCount - 1) →
      let acked := fun (zone : Option Zone) (u : Machine.State) (t : Machine.State) =>
        exec .joinRecord s = .next t ∧
        t = { u with bus := { s.bus with
          outbound := s.bus.outbound ++ [⟨.joinAck src zone, 0⟩], deferral := t.bus.deferral } }
      (unitAt src s = none →
        (∀ u : UnitIx, s.report.registry[u] = none → (∀ v : UnitIx, v < u → (s.report.registry[v]).isSome = true) →
          ∃ t, acked none { t.withNoticesOf s with report := { s.headGone.report with
              registry := s.report.registry.set u (some
                { address := src, serial := serial, unitType := unitType, state := .pending, lastTemp := none
                  lastHumidity := none, lastReport := none, freshness := .lost, implausibleCount := 0
                  faulty := false }) } } t ∧
            s.noticed ⟨.unitJoined, .unit u, s.now, [src] ++ be32 serial ++ [unitType]⟩ t) ∧
        ((∀ u : UnitIx, (s.report.registry[u]).isSome = true) →
          ∃ t, exec .joinRecord s = .next t ∧ t = t.withNoticesOf s.headGone ∧
            s.noticed ⟨.registryFull, .address src, s.now, be32 serial ++ [unitType]⟩ t)) ∧
      ∀ (u : UnitIx) (r : UnitRecord), unitAt src s = some u → s.report.registry[u] = some r →
        (r.serial = serial →
          ∃ t, acked (match r.state with
            | .pending => none
            | .active z _ => some z) s.headGone t) ∧
        (r.serial ≠ serial →
          ∃ t, exec .joinRecord s = .next t ∧ t = t.withNoticesOf s.headGone ∧
            s.noticed ⟨.addressConflict, .unit u, s.now, [r.address] ++ be32 r.serial ++ be32 serial⟩ t)))

/-- A BOOST at the head: from any but an ACTIVE PANEL unit BOOST_REPLY tells UNKNOWN_UNIT; else a request is raised
once, carried out at once when the arbiter is idle, with the delta and the duration brought into range; at its
completion BOOST_REPLY tells the outcome and the record leaves the queue. A BOOST_CANCEL goes the same way,
removes every BOOST of its unit, and brings no reply. Whenever the record leaves, hold-off is judged by the new count.
Rests on the model's choices of logs 2, 4 and 5. -/
def Obligations.BoostRecordsGoThroughTheProgramStore : Prop :=
  (∀ (src : Byte) (arrival : Nat) (rest : List FrameRecord) (s : Machine.State), s.report.storeOrders = [] →
    s.bus.outbound.length < 8 → s.holdOffStays (s.receiveCount - 1) →
    let raised : Machine.State := { s with report := { s.report with headRaised := true } }
    let carried := fun (req : StoreReq) (result : StoreResult) (u : Machine.State) =>
      { u with arbiter := ⟨⟨none, none, none, none, none⟩, some ⟨req, result⟩, .report⟩ }
    let noPanel := ∀ (u : UnitIx) (r : UnitRecord) (z : Zone), unitAt src s = some u →
      s.report.registry[u] = some r → r.state ≠ .active z .panel
    let replied := fun (reason : Reason) (u : Machine.State) (t : Machine.State) =>
      t = { u with bus := { s.bus with
        outbound := s.bus.outbound ++ [⟨.boostReply src reason, 0⟩], deferral := t.bus.deferral } }
    (∀ (delta : Byte) (duration : Half), s.report.queue = ⟨src, .boost delta duration, arrival⟩ :: rest →
      (s.report.headRaised = true → exec .boostRecord s = .next s) ∧
      (s.report.headRaised = false →
        (noPanel → ∃ t, exec .boostRecord s = .next t ∧ replied .unknownUnit s.headGone t) ∧
        ∀ (u : UnitIx) (r : UnitRecord) (z : Zone), unitAt src s = some u → s.report.registry[u] = some r →
          r.state = .active z .panel →
          let req := StoreReq.boost u z delta duration
          let k := s.store.overrides[z]
          (s.arbiterIdle →
            (s.zones[z].serviceMode ≠ .inService →
              exec .boostRecord s = .next (carried req (.boosted .zoneOff) raised)) ∧
            (s.zones[z].serviceMode = .inService → k.hold.any (·.locked) = true →
              exec .boostRecord s = .next (carried req (.boosted .locked) raised)) ∧
            (s.zones[z].serviceMode = .inService → k.hold.any (·.locked) = false →
              ∃ t, exec .boostRecord s = .next t ∧ t.arbiter = (carried req (.boosted .accepted) s).arbiter ∧
                (let b : Boost := ⟨max 5 (min 30 (delta.toNat / 5 * 5)), max 15 (min 240 duration.toNat), u⟩
                t.store = { s.store with overrides := s.store.overrides.set z { k with boost := some b } }) ∧
                t.resolvedAt z ∧ State.onlyStoreAndTargets raised t)) ∧
          ((s.arbiter.carrying).isSome = true → s.arbiter.waiting.report = none →
            exec .boostRecord s = .next { raised with arbiter := { s.arbiter with
              waiting := { s.arbiter.waiting with report := some req } } })) ∧
      ∀ (u : UnitIx) (z : Zone) (reason : Reason), s.arbiter.waiting = ⟨none, none, none, none, none⟩ →
        s.arbiter.carrying = some ⟨.boost u z delta duration, .boosted reason⟩ →
        ∃ t, exec .storeRequestComplete s = .next t ∧
          replied reason { s.headGone with arbiter := { s.arbiter with carrying := none } } t) ∧
    (s.report.queue = ⟨src, .boostCancel, arrival⟩ :: rest →
      (s.report.headRaised = true → exec .boostCancelRecord s = .next s) ∧
      (s.report.headRaised = false →
        (noPanel → exec .boostCancelRecord s = .next s.headGone) ∧
        ∀ (u : UnitIx) (r : UnitRecord) (z : Zone), unitAt src s = some u → s.report.registry[u] = some r →
          r.state = .active z .panel → s.arbiterIdle →
          ∃ t, exec .boostCancelRecord s = .next t ∧
            t.arbiter = (carried (.boostCancel u) .done s).arbiter ∧
            (∀ y : Zone, t.store.overrides[y] =
              if s.store.overrides[y].boost.any (·.owner = u) then { s.store.overrides[y] with boost := none }
              else s.store.overrides[y]) ∧
            (∀ y : Zone, s.store.overrides[y].boost.any (·.owner = u) = true → t.resolvedAt y) ∧
            t.store = { s.store with overrides := t.store.overrides } ∧ State.onlyStoreAndTargets raised t) ∧
      ∀ (u : UnitIx) (result : StoreResult), s.arbiter.waiting = ⟨none, none, none, none, none⟩ →
        s.arbiter.carrying = some ⟨.boostCancel u, result⟩ →
        exec .storeRequestComplete s = .next { s.headGone with arbiter := { s.arbiter with carrying := none } })) ∧
  ∀ (src : Byte) (arrival : Nat) (rest : List FrameRecord) (s : Machine.State), s.report.storeOrders = [] →
    s.arbiter.waiting = ⟨none, none, none, none, none⟩ →
    let left := fun command => ∃ t, exec command s = .next t ∧ t.report.queue = rest ∧
      State.holdOffJudged (s.receiveCount - 1) s t
    (∀ (delta : Byte) (duration : Half), s.report.queue = ⟨src, .boost delta duration, arrival⟩ :: rest →
      (s.report.headRaised = false → unitAt src s = none → left .boostRecord) ∧
      ∀ (u : UnitIx) (z : Zone) (reason : Reason),
        s.arbiter.carrying = some ⟨.boost u z delta duration, .boosted reason⟩ → left .storeRequestComplete) ∧
    (s.report.queue = ⟨src, .boostCancel, arrival⟩ :: rest →
      (s.report.headRaised = false → unitAt src s = none → left .boostCancelRecord) ∧
      ∀ (u : UnitIx) (result : StoreResult),
        s.arbiter.carrying = some ⟨.boostCancel u, result⟩ → left .storeRequestComplete)

/-! ### The valve channels -/

/-- The estimate of a movement: the start position moved towards the target by 100 × elapsed / full_stroke,
rounded to the nearest with halves towards the start, and held at the target.
A stall: disregarded for the first 500 ms and in a slot that drives no motor; the end of a SEEK_CLOSED; of a
MOVE_TO an end stop when closing at 15 or below, the open end when opening at 85 or above, and a jam elsewhere:
FAULT, not calibrated, position unknown, everything the channel held discarded, VALVE_MARK ABORTED raised for each MARK
discarded, to its owner, and VALVE_JAM after all.
Rests on the model's choices of logs 2, 12 and 29. -/
def Obligations.AStallIsJudgedByTheEstimate : Prop :=
  (∀ (m : Movement) (p ticks : Nat), m.start = some p → 1 ≤ m.stroke →
    ∃ k, 200 * ticks ≤ (2 * k + 1) * (m.stroke * 32768) ∧ 2 * k * (m.stroke * 32768) < 200 * ticks + m.stroke * 32768 ∧
      (p ≤ m.target → m.estimate ticks = some (min m.target (p + k))) ∧
      (m.target < p → m.estimate ticks = some (max m.target (p - k)))) ∧
  (∀ (i : Slot) (s : Machine.State),
    (s.valves.slots[i] = none → exec (.stall i) s = .next s) ∧
    ∀ (c : Channel) (e : Entry) (t0 n0 : Nat) (m : Movement), s.valves.slots[i] = some c → m.slot = i →
      (s.channel c).inProgress = some ⟨e, t0, n0, some m⟩ →
      let ended := fun (position : Nat) (t : Machine.State) =>
        exec (.stall i) s = .next t ∧ (t.channel c).position = some position ∧
        (t.channel c).lastMoved = some s.now ∧ (t.channel c).state ≠ .fault ∧
        (∀ d : Channel, d ≠ c → (t.channel d).position = (s.channel d).position) ∧
        t.clock = s.clock ∧ t.store = s.store ∧ t.report = s.report ∧ t.link = s.link
      (s.clock.ticks < t0 + 16384 → exec (.stall i) s = .next s) ∧
      (t0 + 16384 ≤ s.clock.ticks →
        (e = .seekClosed → ∃ t, ended 0 t ∧
          (t.channel c).calibrated = ((s.channel c).calibrated || (s.channel c).zone.isSome)) ∧
        ∀ (pos : Nat) (origin : Origin) (p x : Nat), e = .moveTo pos origin → m.start = some p →
          m.estimate (s.clock.ticks - t0) = some x →
          (m.target < p → x ≤ 15 →
            ∃ t, ended 0 t ∧ (t.channel c).calibrated = (s.channel c).calibrated) ∧
          (p < m.target → 85 ≤ x →
            ∃ t, ended 100 t ∧ (t.channel c).calibrated = (s.channel c).calibrated) ∧
          (m.target < p ∧ 15 < x ∨ p < m.target ∧ x < 85 →
            ∃ t, exec (.stall i) s = .next t ∧
              t.channel c = { s.channel c with
                state := .fault
                calibrated := false
                position := none
                lastMoved := some s.now
                openConfirmed := false
                inProgress := none
                queue := []
                urgent := none } ∧
              t.demand.lastIssued[c] = none ∧ (c ∉ s.valves.waiting → t.valves.slots[i] ≠ some c) ∧
              (∀ d : Channel, d ≠ c → (t.channel d).position = (s.channel d).position ∧
                (t.channel d).settings = (s.channel d).settings) ∧
              (∀ q : Port, (s.port q).mask[13] = true → (t.port q).noticesLost = false →
                ∃ before, (t.port q).notices = before ++ [⟨.valveJam, .channel c, s.now,
                  [match (s.channel c).zone with
                    | some z => BitVec.ofNat 8 z.val
                    | none => 0xFF, if p < m.target then 0 else 1, BitVec.ofNat 8 m.target,
                    BitVec.ofNat 8 x]⟩]) ∧
              (∀ q : Port, c ∉ s.valves.waiting → (s.port q).mask[14] = true → (t.port q).noticesLost = false →
                (t.port q).marksOf c = (s.port q).marksOf c ++ marksAborted q c s.now
                  (if (s.channel c).headStarted then (s.channel c).queue.tail else (s.channel c).queue)) ∧
              t.clock = s.clock ∧ t.store = s.store ∧ t.report = s.report ∧ t.link = s.link)))

/-- A movement that runs its time: a MOVE_TO ends at its target, a SEEK_CLOSED at 0 with NO_END_STOP, calibrating a
channel of a zone; last_moved is set and no other channel's position moves. With no further work the slot is free
and the channel at rest.
A DWELL ends: the entry leaves the queue; with nothing behind it the channel rests, a MOVE_TO that moves waits
for a slot at the tail of the list, a MARK is done and tells its owner.
Rests on the model's choices of logs 1, 12, 29 and 35. -/
def Obligations.MovementsAndDwellsEnd : Prop :=
  (∀ (c : Channel) (e : Entry) (t0 n0 : Nat) (m : Movement) (s : Machine.State),
    (s.channel c).inProgress = some ⟨e, t0, n0, some m⟩ →
    let others := fun t : Machine.State =>
      (∀ d : Channel, d ≠ c → (t.channel d).position = (s.channel d).position ∧
        (t.channel d).lastMoved = (s.channel d).lastMoved ∧ (t.channel d).settings = (s.channel d).settings) ∧
      (t.channel c).zone = (s.channel c).zone ∧ (t.channel c).fullStroke = (s.channel c).fullStroke ∧
      (t.channel c).minPos = (s.channel c).minPos ∧ (t.channel c).maxPos = (s.channel c).maxPos
    let untouched := fun t : Machine.State =>
      t.written = s.written ∧ t.taken = s.taken ∧ t.store = s.store ∧ t.arbiter = s.arbiter ∧
        t.contacts = s.contacts ∧ t.report = s.report ∧ t.link = s.link
    let atRest := fun (position : Nat) (calibrated : Bool) (t : Machine.State) =>
      t.channel c = { s.channel c with
        position := some position
        lastMoved := some t.now
        inProgress := none
        queue := []
        calibrated := calibrated
        state := if (s.channel c).zone = none then .unassigned else if calibrated then .idle else .uncalibrated
        openConfirmed := calibrated && decide (s.taken.openThreshold ≤ position) } ∧
      t.valves.slots = s.valves.slots.set m.slot none ∧ t.valves.waiting = []
    (∀ (p pos : Nat) (origin : Origin), e = .moveTo pos origin → m.start = some p →
      ∃ t, exec (.movementCompletion c) s = .next t ∧
        t.clock = { s.clock with
          ticks := s.ticksAt (t0 + ((max p m.target - min p m.target) * m.stroke * 32768 + 99) / 100) } ∧
        (t.channel c).position = some m.target ∧ (t.channel c).lastMoved = some t.now ∧
        (t.channel c).calibrated = (s.channel c).calibrated ∧ others t ∧ untouched t ∧
        (s.valves.waiting = [] → (s.channel c).urgent = none →
          (s.channel c).queue = (if origin = .urgent then [] else [e]) →
          atRest m.target (s.channel c).calibrated t)) ∧
    (e = .seekClosed →
      ∃ t, exec (.seekClosedTimeout c) s = .next t ∧
        t.clock = { s.clock with ticks := s.ticksAt (t0 + (3 * m.stroke * 32768 + 1) / 2) } ∧
        (t.channel c).position = some 0 ∧ (t.channel c).lastMoved = some t.now ∧
        (t.channel c).calibrated = ((s.channel c).calibrated || (s.channel c).zone.isSome) ∧ others t ∧
        untouched t ∧
        (∀ q : Port, (s.port q).mask[15] = true → (s.port q).notices.length < 32 →
          ∃ later, (t.port q).notices = (s.port q).notices ++ ⟨.noEndStop, .channel c, t.now,
            [match (s.channel c).zone with
              | some z => BitVec.ofNat 8 z.val
              | none => 0xFF]⟩ :: later) ∧
        (s.valves.waiting = [] → (s.channel c).urgent = none → (s.channel c).queue = [e] →
          atRest 0 ((s.channel c).calibrated || (s.channel c).zone.isSome) t))) ∧
  (∀ (c : Channel) (d t0 n0 : Nat) (rest : List Entry) (s : Machine.State),
    (s.channel c).inProgress = some ⟨.dwell d, t0, n0, none⟩ → (s.channel c).queue = .dwell d :: rest →
    (s.channel c).urgent = none → (∀ i : Slot, (s.valves.slots[i]).isSome = true) →
    ∃ v, let u : Machine.State := { s with
        clock := { s.clock with ticks := s.ticksAt (t0 + d * 32768) }
        bus := { s.bus with backoffReg := v } }
      let after := fun (q : List Entry) (state : ChannelState) (w : Machine.State) => w.modChannel c fun r =>
        { r with queue := q, inProgress := none, state := state }
      let still := if (s.channel c).zone = none then ChannelState.unassigned
        else if (s.channel c).calibrated then .idle else .uncalibrated
      (rest = [] → exec (.dwellEnd c) s = .next (after [] still u)) ∧
      (∀ p q, rest = .moveTo p .service :: q → (s.channel c).position ≠ some p →
        exec (.dwellEnd c) s = .next { after rest .waiting u with
          valves := { (after rest .waiting u).valves with waiting := s.valves.waiting ++ [c] } }) ∧
      (∀ owner tag, rest = [.mark owner tag] →
        exec (.dwellEnd c) s = .next ((after [] still u).modPort owner
          (PortState.offer ⟨.valveMark, .channel c, u.now, [tag, 0]⟩))))

/-- Moves reaching a channel: a loop move replaces the unstarted one in its place, else stands at the tail of a
queue with room, else is dropped, as it is by a channel without zone or calibration or in FAULT; the Demand Unit
keeps an accepted position as last issued. An urgent move is discarded by a channel not calibrated or in FAULT,
goes to the head of the waiting list on a WAITING channel, and takes a MOVING channel over at its estimate. On an IDLE
channel it waits at the head of the list when no slot is free, starts at once in the lowest-numbered free slot when
nobody waits, or completes at once at its position; on a DWELLING one the DWELL is discarded first. A MOVING channel
whose estimate is the urgent target stands there: the entry in progress and the urgent one are gone, the slot is free,
and the last issued position stays as it stood.
The effective target: in RUNOUT a LOOP move of a channel of a zone in the runout set is clamped at open_threshold.
A loop move on a channel at rest completes without movement at its effective target, else it waits for a slot. A slot
granted to the head of the list starts its MOVE_TO from the position to the effective target: the slot's output of that
direction is driven, and the channel selected.
Rests on the model's choices of logs 33, 41 and 48. -/
def Obligations.MovesArePlacedByTheirTables : Prop :=
  (∀ (c : Channel) (pos : Nat) (s : Machine.State),
    let r := s.channel c
    let started := if r.headStarted then 1 else 0
    let isLoop := fun e : Entry => ∃ p, e = .moveTo p .loop
    let queued := fun q : List Entry => (s.setIssued c (some pos)).modChannel c fun r => { r with queue := q }
    (r.zone = none ∨ r.calibrated = false ∨ r.state = .fault → placeLoopMove c pos s = s) ∧
    (r.zone ≠ none → r.calibrated = true → r.state ≠ .fault →
      (∀ before old after, r.queue = before ++ .moveTo old .loop :: after → started ≤ before.length →
        (∀ e ∈ before.drop started, ¬ isLoop e) →
        placeLoopMove c pos s = queued (before ++ .moveTo pos .loop :: after)) ∧
      ((∀ e ∈ r.queue.drop started, ¬ isLoop e) →
        (8 ≤ r.queue.length → placeLoopMove c pos s = s) ∧
        (r.queue.length < 8 → r.inProgress.isSome = true ∨ r.state = .waiting →
          placeLoopMove c pos s = queued (r.queue ++ [.moveTo pos .loop])))) ∧
    (r.calibrated = false ∨ r.state = .fault → placeUrgent pos c s = s) ∧
    (r.calibrated = true → r.state = .waiting → r.inProgress = none →
      (∀ i : Slot, (s.valves.slots[i]).isSome = true) →
      placeUrgent pos c s = { s with valves := { s.valves with
        channels := s.valves.channels.set c { r with urgent := some pos }
        waiting := c :: s.valves.waiting.filter (· ≠ c) } }) ∧
    ∀ (e : Entry) (t0 n0 : Nat) (m : Movement) (x : Nat), r.calibrated = true → r.state = .moving →
      r.inProgress = some ⟨e, t0, n0, some m⟩ → m.estimate (s.clock.ticks - t0) = some x → x ≠ pos →
      let t := placeUrgent pos c s
      t.channel c = { r with
        position := some x
        lastMoved := some s.now
        inProgress := some ⟨.moveTo pos .urgent, s.clock.ticks, s.now, some ⟨some x, pos, m.slot, r.fullStroke⟩⟩
        urgent := none
        queue := if r.headStarted then r.queue.tail else r.queue
        openConfirmed := decide (s.taken.openThreshold ≤ x) && decide (s.taken.openThreshold ≤ pos) } ∧
      t.valves = { s.valves with channels := t.valves.channels } ∧
      (∀ d : Channel, d ≠ c → t.channel d = s.channel d) ∧
      t.demand = { s.demand with
        lastIssued := s.demand.lastIssued.set c (if s.demand.lastIssued[c] = some pos then some pos else none) }) ∧
  (∀ (c : Channel) (pos : Nat) (s : Machine.State),
    let r := s.channel c
    let t := placeUrgent pos c s
    (r.calibrated = true → r.zone ≠ none → r.state = .idle → r.inProgress = none →
      (r.position ≠ some pos → (∀ i : Slot, (s.valves.slots[i]).isSome = true) →
        t = { s with valves := { s.valves with
          channels := s.valves.channels.set c { r with state := .waiting, urgent := some pos }
          waiting := c :: s.valves.waiting } }) ∧
      (∀ (i : Slot) (p : Nat), r.position = some p → p ≠ pos → s.valves.waiting = [] → s.valves.slots[i] = none →
        (∀ j : Slot, j < i → (s.valves.slots[j]).isSome = true) →
        t.channel c = { r with
          state := .moving
          urgent := none
          inProgress := some ⟨.moveTo pos .urgent, s.clock.ticks, s.now, some ⟨some p, pos, i, r.fullStroke⟩⟩
          openConfirmed := decide (s.taken.openThreshold ≤ p) && decide (s.taken.openThreshold ≤ pos) } ∧
        t.valves = { s.valves with channels := t.valves.channels, slots := s.valves.slots.set i (some c) } ∧
        (∀ d : Channel, d ≠ c → t.channel d = s.channel d) ∧
        t.demand = { s.demand with
          lastIssued := s.demand.lastIssued.set c (if s.demand.lastIssued[c] = some pos then some pos else none) }) ∧
      (r.position = some pos → r.queue = [] → ((∃ i : Slot, s.valves.slots[i] = none) → s.valves.waiting = []) →
        t = s.modChannel c fun r => { r with urgent := none })) ∧
    (r.calibrated = true → r.zone ≠ none → r.state = .dwelling →
      t = placeUrgent pos c (s.modChannel c fun r =>
        { r with state := .idle, queue := r.queue.tail, inProgress := none })) ∧
    ∀ (e : Entry) (t0 n0 : Nat) (m : Movement), r.calibrated = true → r.state = .moving →
      r.inProgress = some ⟨e, t0, n0, some m⟩ → m.estimate (s.clock.ticks - t0) = some pos →
      (t.channel c).position = some pos ∧ (t.channel c).lastMoved = some s.now ∧ (t.channel c).urgent = none ∧
      (r.zone ≠ none → (if r.headStarted then r.queue.tail else r.queue) = [] → s.valves.waiting = [] →
        t.channel c = { r with
          state := .idle
          position := some pos
          lastMoved := some s.now
          inProgress := none
          urgent := none
          queue := []
          openConfirmed := decide (s.taken.openThreshold ≤ pos) } ∧
        t.valves = { s.valves with channels := t.valves.channels, slots := s.valves.slots.set m.slot none } ∧
        (∀ d : Channel, d ≠ c → t.channel d = s.channel d) ∧ t.demand = s.demand)) ∧
  (∀ (c : Channel) (pos : Nat) (s : Machine.State),
    let clamped := s.firing.state = .runout ∧ pos < s.taken.openThreshold ∧
      ∃ z : Zone, (s.channel c).zone = some z ∧ z ∈ s.firing.runoutSet
    (clamped → effectiveTarget s c pos .loop = s.taken.openThreshold) ∧
    (¬ clamped → effectiveTarget s c pos .loop = pos) ∧
    effectiveTarget s c pos .service = pos ∧ effectiveTarget s c pos .urgent = pos) ∧
  (∀ (c : Channel) (pos : Nat) (s : Machine.State),
    let r := s.channel c
    r.zone ≠ none → r.calibrated = true → r.state = .idle → r.inProgress = none → r.queue = [] → r.urgent = none →
    (∀ i : Slot, (s.valves.slots[i]).isSome = true) →
    let issued := { s with demand := { s.demand with lastIssued := s.demand.lastIssued.set c (some pos) } }
    (r.position = some (effectiveTarget s c pos .loop) → placeLoopMove c pos s = issued) ∧
    (r.position ≠ some (effectiveTarget s c pos .loop) →
      placeLoopMove c pos s = { issued with valves := { s.valves with
        channels := s.valves.channels.set c { r with state := .waiting, queue := [.moveTo pos .loop] }
        waiting := s.valves.waiting ++ [c] } })) ∧
  ∀ (c : Channel) (rest : List Channel) (i : Slot) (pos : Nat) (origin : Origin) (q : List Entry) (p : Nat)
      (s : Machine.State),
    let r := s.channel c
    let x := effectiveTarget s c pos origin
    s.valves.waiting = c :: rest → s.valves.slots[i] = none →
    (∀ j : Slot, j ≠ i → (s.valves.slots[j]).isSome = true) →
    r.urgent = none → r.queue = .moveTo pos origin :: q → r.position = some p → p ≠ x →
    let t := grantSlots s
    t.channel c = { r with
      state := .moving
      inProgress := some ⟨.moveTo pos origin, s.clock.ticks, s.now, some ⟨some p, x, i, r.fullStroke⟩⟩
      openConfirmed := r.calibrated && decide (s.taken.openThreshold ≤ p) && decide (s.taken.openThreshold ≤ x) } ∧
    t.valves = { s.valves with
      channels := t.valves.channels, slots := s.valves.slots.set i (some c), waiting := rest } ∧
    t.driveOpen i = decide (p < x) ∧ t.driveClose i = decide (x < p) ∧ t.selectOut c = true ∧
    (∀ d : Channel, d ≠ c → t.channel d = s.channel d) ∧
    t.demand = { s.demand with
      lastIssued := s.demand.lastIssued.set c (if s.demand.lastIssued[c] = some x then some x else none) }

/-! ### The burner link and the Firing Controller -/

/-- An exchange: the DEMAND is taken from the Firing Controller as it stands, with its pump request and its flow
setpoint, and sent as the bytes given, each on the line as a start bit, its bits from the least significant and a stop
bit, the line resting at all other times; a byte that arrives is read in the same order; the pending reset is cleared; the reply window opens at the frame's last byte.
A byte in the window is discarded during a discard, else it is one of the frame: a wrong kind, a wrong length or a low
stop bit abandons the frame, and eight bytes make it complete and judged. 10 ms of quiet end a frame or a discard, and
a frame that fails a check leaves the window open.
A miss: counted up to 255, and at link_misses on a link that is UP the link goes DOWN with its notice and the
firing state to LINK_DOWN, its timers stopped.
Rests on the model's choices of logs 1, 2, 27, 29, 31 and 46. -/
def Obligations.ExchangesAndTheirMisses : Prop :=
  (∀ s : Machine.State,
    (s.link.exchange = .none →
      ∃ (v : BitVec 16) (d : Nat),
        let f := s.firing
        let heat := f.state = .requesting ∨ f.state = .firing
        let pump := f.state ≠ .linkDown ∧
          (heat ∨ f.state = .runout ∨ (f.state = .lockout ∧ f.lockoutPumpTimer ≠ none) ∨ f.dump = true ∨
            ∃ z : Zone, f.picture.frost[z] = true)
        let counts := fun z : Zone => f.picture.served[z] = true ∧
          (f.picture.flowReady[z] = true ∨ s.taken.bypassEnable = true)
        let setpoint := ((200 * s.taken.minFlow + 2 * (s.taken.maxFlow - s.taken.minFlow : Int) * d + 100) / 200).toNat
        (∀ z, counts z → f.picture.demand[z] ≤ d) ∧ (d = 0 ∨ ∃ z, counts z ∧ f.picture.demand[z] = d) ∧
        ∃ heatOn pumpOn : Bool, (heatOn = true ↔ heat) ∧ (pumpOn = true ↔ pump) ∧
          exec .exchange s = .next { s with
            clock := { s.clock with ticks := s.ticksAt s.link.nextExchange }
            bus := { s.bus with backoffReg := v }
            firing := { f with setpoint := setpoint, pendingReset := false }
            link := { s.link with
              nextExchange := s.link.nextExchange + s.taken.linkPeriod * 32768
              exchange := .sending
              demand := some ⟨heatOn, pumpOn, f.pendingReset, setpoint⟩
              bldir := .towardsBoiler } }) ∧
    (s.link.exchange = .sending →
      exec .demandSent s = .next { s with link := { s.link with
        bldir := .towardsPart, exchange := .window s.clock.ticks, rx := .quiet } }) ∧
    (∀ since, s.link.exchange = .window since → s.clock.ticks ≤ since + 13108 →
      (∀ byte : LinkByte,
        let now := fun rx : LinkRx =>
          exec (.frameAbandoned byte) s = .next { s with link := { s.link with rx := rx } }
        (∀ last, s.link.rx = .discarding last → s.clock.ticks < last + 328 → now (.discarding s.clock.ticks)) ∧
        ∀ before : List Byte,
          (∃ last, s.link.rx = .frame before last ∧ s.clock.ticks < last + 328) ∨
            (before = [] ∧ (s.link.rx = .quiet ∨ ∃ last, last + 328 ≤ s.clock.ticks ∧
              (s.link.rx = .discarding last ∨ ∃ cut, s.link.rx = .frame cut last))) →
          let bytes := before ++ [linkValue byte]
          let fault := byte.stopLow = true ∨ (∃ k, bytes[0]? = some k ∧ k ≠ 0x02) ∨ ∃ n, bytes[1]? = some n ∧ n ≠ 5
          (fault → now (.discarding s.clock.ticks)) ∧
          (¬ fault →
            (bytes.length < 8 → now (.frame bytes s.clock.ticks)) ∧
            ∀ f : StatusBytes, bytes = [2, 5, f.flame, f.lockout, f.flow, f.ret, f.faultCode, f.crc] →
              (goodStatus? f = none → now .quiet) ∧
              ((goodStatus? f).isSome = true →
                exec (.frameAbandoned byte) s =
                  exec (.status f) { s with link := { s.link with rx := .quiet } }))) ∧
      (∀ frame, goodStatus? frame = none → s.link.rx = .quiet →
        exec (.discardedFrame frame) s = .next s ∧ exec (.status frame) s = .next s)) ∧
    (s.link.rx = .quiet → exec .byteGapTimeout s = .next s) ∧
    ∀ x, (s.link.rx = .discarding x ∨ ∃ bytes, s.link.rx = .frame bytes x) →
      ∃ v, exec .byteGapTimeout s = .next { s with
        clock := { s.clock with ticks := s.ticksAt (x + 328) }
        bus := { s.bus with backoffReg := v }
        link := { s.link with rx := .quiet } }) ∧
  (∀ d : DemandFrame,
    let bytes : List Byte := [0x01, 4, yesNo d.heatRequest, yesNo d.pumpRequest, yesNo d.resetRequest, byteOf d.setpoint]
    d.bytes = bytes ++ [crc8 bytes] ∧
    d.levels = d.bytes.flatMap fun v => [false] ++ ((List.range 8).map fun i => v.getLsbD i) ++ [true]) ∧
  (∀ s : Machine.State, (s.link.exchange ≠ .sending → s.linkLevels = []) ∧
    ∀ d, s.link.exchange = .sending → s.link.demand = some d → s.linkLevels = d.levels) ∧
  (∀ (byte : LinkByte) (i : Fin 8), (linkValue byte).getLsbD i = byte.data[i]) ∧
  (∀ (since : Nat) (s : Machine.State), s.link.exchange = .window since →
    ∃ v : BitVec 16,
      let n := min 255 (s.link.missCount + 1)
      let u : Machine.State := { s with
        clock := { s.clock with ticks := s.ticksAt (since + 13108) }
        bus := { s.bus with backoffReg := v }
        link := { s.link with exchange := .none, rx := .quiet, missCount := n } }
      (s.link.up = false ∨ n < s.taken.linkMisses → exec .miss s = .next u) ∧
      (s.link.up = true → s.taken.linkMisses ≤ n →
        let w := u.firingAt .linkDown
        ∃ t, exec .miss s = .next t ∧
          t = t.withNoticesOf { w with
            link := { u.link with up := false }
            firing := { w.firing with
              runoutSet := [], runoutTimer := none, frostSkip := false, lockoutPumpTimer := none } } ∧
          ∀ q : Port, (s.port q).mask[17] = true → (s.port q).mask[16] = true → (s.port q).notices.length < 31 →
            (t.port q).notices = (s.port q).notices ++ [⟨.linkDown, .none, t.now, [BitVec.ofNat 8 n]⟩,
              ⟨.firingState, .none, t.now, [s.firing.state.code, 6, 10]⟩]))

/-- A good STATUS on a link that is UP, with the lockout and the dump flag as they stand: it is kept, the miss count
is cleared, and flame moves REQUESTING to FIRING and back. Lockout moves every other state to LOCKOUT, with the
lockout pump timer by the state left (a runout_time of 0 is the model's choice, log 28); its end leads to ANTICYCLE,
or to OFF with its test when min_off is over.
Rests on the model's choices of logs 28 and 29. -/
def Obligations.AGoodStatusIsJudgedForLockoutAndFlame : Prop :=
  ∀ (flame lockout : Bool) (flow ret fault : Byte) (since : Nat) (s : Machine.State),
    s.link.exchange = .window since → s.clock.ticks ≤ since + 13108 → s.link.rx = .quiet →
    flow.toNat ≤ 125 → ret.toNat ≤ 125 → s.link.up = true →
    (if s.firing.dump then s.taken.dumpThreshold < flow.toNat + 10 else flow.toNat < s.taken.dumpThreshold) →
    let bytes : List Byte := [2, 5, encFlag flame, encFlag lockout, flow, ret, fault]
    let command := Instr.status ⟨encFlag flame, encFlag lockout, flow, ret, fault, crc8 bytes⟩
    let kept := { s with link := { s.link with
      exchange := .none
      missCount := 0
      lastStatus := some ⟨⟨flame, lockout, flow.toNat, ret.toNat, fault⟩, s.now⟩ } }
    let moved := fun (u t : Machine.State) (detail : List Byte) =>
      exec command s = .next t ∧ t = t.withNoticesOf u ∧ s.noticed ⟨.firingState, .none, s.now, detail⟩ t
    (lockout = false → s.firing.state ≠ .lockout →
      (s.firing.state = .requesting → flame = true → ∃ t, moved (kept.firingAt .firing) t [1, 2, 1]) ∧
      (s.firing.state = .firing → flame = false → ∃ t, moved (kept.firingAt .requesting) t [2, 1, 2]) ∧
      (¬ (s.firing.state = .requesting ∧ flame = true) → ¬ (s.firing.state = .firing ∧ flame = false) →
        exec command s = .next kept)) ∧
    (lockout = true →
      (s.firing.state = .lockout → exec command s = .next kept) ∧
      (s.firing.state ≠ .lockout →
        let timer := match s.firing.state with
          | .requesting | .firing =>
            if s.taken.runoutTime = 0 then none else some (s.clock.ticks + s.taken.runoutTime * 32768)
          | .runout => s.firing.runoutTimer
          | _ => none
        let u := kept.firingAt .lockout
        ∃ t, moved { u with firing := { u.firing with
          runoutSet := [], runoutTimer := none, frostSkip := false, lockoutPumpTimer := timer } } t
          [s.firing.state.code, 5, 8, fault])) ∧
    (lockout = false → s.firing.state = .lockout →
      (¬ s.minOffOver →
        let u := kept.firingAt .anticycle
        ∃ t, moved { u with firing := { u.firing with lockoutPumpTimer := none } } t [5, 4, 9]) ∧
      (s.minOffOver →
        ∃ t, exec command s = .next t ∧ t.link = kept.link ∧ t.firing.lockoutPumpTimer = none ∧
          (¬ s.mayFire → t.firing.state = .off) ∧
          (s.mayFire → t.firing.state = if flame then .firing else .requesting)))

/-- A good STATUS and the dump flag: at dump_threshold the flag is set, every calibrated assigned channel gets an
urgent MOVE_TO 100, and REQUESTING or FIRING pass to RUNOUT; ten degrees below it is cleared and firing permitted
tested. A link that was DOWN recovers at the STATUS with LINK_UP and leaves LINK_DOWN: for LOCKOUT when lockout is yes,
else for ANTICYCLE while min_off runs, else for OFF, whose test may go on to REQUESTING and, with the flame on, to
FIRING.
Rests on the model's choices of logs 9, 29, 33 and 41. -/
def Obligations.AGoodStatusIsJudgedForDumpAndLink : Prop :=
  ∀ (flame lockout : Bool) (flow ret fault : Byte) (since : Nat) (s : Machine.State),
    s.link.exchange = .window since → s.clock.ticks ≤ since + 13108 → s.link.rx = .quiet →
    flow.toNat ≤ 125 → ret.toNat ≤ 125 →
    let bytes : List Byte := [2, 5, encFlag flame, encFlag lockout, flow, ret, fault]
    let command := Instr.status ⟨encFlag flame, encFlag lockout, flow, ret, fault, crc8 bytes⟩
    let kept := { s with link := { s.link with
      exchange := .none
      missCount := 0
      up := true
      lastStatus := some ⟨⟨flame, lockout, flow.toNat, ret.toNat, fault⟩, s.now⟩ } }
    (s.link.up = true → lockout = false → s.firing.state ≠ .lockout →
      (s.firing.dump = false → s.taken.dumpThreshold ≤ flow.toNat →
        ∃ t, exec command s = .next t ∧ t.link = kept.link ∧ t.firing.dump = true ∧
          t.valves = (forEach (allChannels.filter fun c => (s.channel c).zone.isSome && (s.channel c).calibrated)
            (placeUrgent 100) { kept with firing := { kept.firing with dump := true } }).valves ∧
          (∀ q : Port, (s.port q).mask[19] = true → (t.port q).noticesLost = false →
            ⟨.heatDump, .none, s.now, [0, flow]⟩ ∈ (t.port q).notices) ∧
          (s.firing.state ≠ .requesting → s.firing.state ≠ .firing → t.firing.state = s.firing.state) ∧
          (s.firing.state = .requesting ∨ s.firing.state = .firing → 1 ≤ s.taken.runoutTime →
            t.firing.state = .runout ∧ t.firing.offSince = some s.now ∧ t.firing.frostSkip = false ∧
            t.firing.runoutTimer = some (s.clock.ticks + s.taken.runoutTime * 32768) ∧
            ∀ z : Zone, z ∈ t.firing.runoutSet ↔
              s.firing.picture.served[z] = true ∧ s.firing.picture.flowReady[z] = true)) ∧
      (s.firing.dump = true → flow.toNat + 10 ≤ s.taken.dumpThreshold →
        let u : Machine.State := { kept with firing := { kept.firing with dump := false } }
        (s.firing.state = .runout ∨ s.firing.state = .anticycle →
          ∃ t, exec command s = .next t ∧ t = t.withNoticesOf u ∧
            s.noticed ⟨.heatDump, .none, s.now, [1, flow]⟩ t) ∧
        (s.firing.state = .off →
          ∃ t, exec command s = .next t ∧ t.link = kept.link ∧ t.firing.dump = false ∧
            (¬ u.mayFire → t.firing.state = .off) ∧
            (u.mayFire → t.firing.state = if flame then .firing else .requesting)))) ∧
    (s.link.up = false → s.firing.state = .linkDown →
      (if s.firing.dump then s.taken.dumpThreshold < flow.toNat + 10 else flow.toNat < s.taken.dumpThreshold) →
      let noticed := fun (t : Machine.State) (details : List (List Byte)) =>
        ∀ q : Port, (s.port q).mask[18] = true → (s.port q).mask[16] = true →
          (s.port q).notices.length + details.length < 32 →
          (t.port q).notices = (s.port q).notices ++
            ⟨.linkUp, .none, s.now, [BitVec.ofNat 8 s.link.missCount]⟩ ::
              details.map fun detail => ⟨.firingState, .none, s.now, detail⟩
      (lockout = true →
        let u := kept.firingAt .lockout
        ∃ t, exec command s = .next t ∧ noticed t [[6, 5, 8, fault]] ∧
          t = t.withNoticesOf { u with firing := { u.firing with
            runoutSet := [], runoutTimer := none, frostSkip := false, lockoutPumpTimer := none } }) ∧
      (lockout = false →
        (¬ s.minOffOver →
          ∃ t, exec command s = .next t ∧ noticed t [[6, 4, 11]] ∧ t = t.withNoticesOf (kept.firingAt .anticycle)) ∧
        (s.minOffOver →
          (¬ s.mayFire →
            ∃ t, exec command s = .next t ∧ noticed t [[6, 0, 11]] ∧ t = t.withNoticesOf (kept.firingAt .off)) ∧
          (s.mayFire →
            let asking := (kept.firingAt .off).firingAt .requesting
            (flame = false → ∃ t, exec command s = .next t ∧ noticed t [[6, 0, 11], [0, 1, 0]] ∧
              t = t.withNoticesOf asking) ∧
            (flame = true → ∃ t, exec command s = .next t ∧ noticed t [[6, 0, 11], [0, 1, 0], [1, 2, 1]] ∧
              t = t.withNoticesOf (asking.firingAt .firing))))))

/-- The Firing Controller's timers: at the end of RUNOUT the state passes to ANTICYCLE, or to OFF when frost_skip is
yes or min_off is over; at the end of min_off to OFF; OFF tests firing permitted. The lockout pump timer stops.
A test of firing permitted, at a call update or a change of flow_ready: OFF passes to REQUESTING when firing is
permitted; REQUESTING and FIRING pass to RUNOUT when it is not, with the zones of the previous served set that are
flow_ready as the runout set; in every other case nothing changes. A runout_time of 0 ends RUNOUT at once.
A zone entering frost emergency: ANTICYCLE passes to OFF at once, whose test may go on to REQUESTING; RUNOUT keeps
frost_skip for its end; no other state changes.
Rests on the model's choices of logs 1 and 28. -/
def Obligations.FiringStateFollowsTimersTestsAndFrost : Prop :=
  (∀ s : Machine.State,
    let entersOff := fun (command : Instr) (u : Machine.State) (old cause : Byte) =>
      (¬ u.mayFire → ∃ t, exec command s = .next t ∧ t = t.withNoticesOf (u.firingAt .off) ∧
        s.noticed ⟨.firingState, .none, u.now, [old, 0, cause]⟩ t) ∧
      (u.mayFire → ∃ t, exec command s = .next t ∧ t = t.withNoticesOf (u.firingAt .requesting) ∧
        ∀ q : Port, (s.port q).mask[16] = true → (s.port q).notices.length < 31 →
          (t.port q).notices = (s.port q).notices ++ [⟨.firingState, .none, u.now, [old, 0, cause]⟩,
            ⟨.firingState, .none, u.now, [0, 1, 0]⟩])
    (∀ x, s.firing.state = .runout → s.firing.runoutTimer = some x →
      ∃ v : BitVec 16, let u : Machine.State := { s with
          clock := { s.clock with ticks := s.ticksAt x }
          bus := { s.bus with backoffReg := v }
          firing := { s.firing with runoutSet := [], runoutTimer := none, frostSkip := false } }
        (s.firing.frostSkip = false → ¬ u.minOffOver →
          ∃ t, exec .runoutTimerExpiry s = .next t ∧ t = t.withNoticesOf (u.firingAt .anticycle) ∧
            s.noticed ⟨.firingState, .none, u.now, [3, 4, 5]⟩ t) ∧
        (s.firing.frostSkip = true ∨ u.minOffOver → entersOff .runoutTimerExpiry u 3 5)) ∧
    (∀ t0, s.firing.state = .anticycle → s.firing.offSince = some t0 →
      ∃ v : BitVec 16, entersOff .minOffElapsed { s with
          clock := { s.clock with ticks := s.ticksAt ((t0 + s.taken.minOff) * 32768) }
          bus := { s.bus with backoffReg := v } } 4 6) ∧
    ∀ x, s.firing.state = .lockout → s.firing.lockoutPumpTimer = some x →
      ∃ v : BitVec 16, exec .lockoutPumpTimerExpiry s = .next { s with
        clock := { s.clock with ticks := s.ticksAt x }
        bus := { s.bus with backoffReg := v }
        firing := { s.firing with lockoutPumpTimer := none } }) ∧
  (∀ (served : Vector Bool 16) (s : Machine.State),
    let t := testPermitted served s
    (s.firing.state = .off → s.mayFire → t = t.withNoticesOf (s.firingAt .requesting) ∧
      s.noticed ⟨.firingState, .none, s.now, [0, 1, 0]⟩ t) ∧
    (s.firing.state = .requesting ∨ s.firing.state = .firing → s.firing.dump = false → ¬ s.mayFire →
      (1 ≤ s.taken.runoutTime →
        let u := s.firingAt .runout
        t = t.withNoticesOf { u with firing := { u.firing with
          runoutSet := t.firing.runoutSet
          runoutTimer := some (s.clock.ticks + s.taken.runoutTime * 32768)
          frostSkip := false } } ∧
        (∀ z : Zone, z ∈ t.firing.runoutSet ↔ served[z] = true ∧ s.firing.picture.flowReady[z] = true) ∧
        s.noticed ⟨.firingState, .none, s.now, [s.firing.state.code, 3, 3]⟩ t) ∧
      (s.taken.runoutTime = 0 → t.firing.runoutSet = [] ∧ t.firing.runoutTimer = none ∧
        t.firing.offSince = some s.now ∧ t.firing.state = if s.taken.minOff = 0 then .off else .anticycle)) ∧
    (s.firing.state = .off ∧ ¬ s.mayFire ∨
        (s.firing.state = .requesting ∨ s.firing.state = .firing) ∧ s.mayFire ∨
        s.firing.state = .runout ∨ s.firing.state = .anticycle ∨ s.firing.state = .lockout ∨
        s.firing.state = .linkDown → t = s) ∧
    callUpdate s = testPermitted s.firing.picture.served { s with firing := { s.firing with
      picture := { s.firing.picture with
        list := s.demand.heatList
        served := s.zones.map (·.served)
        demand := s.zones.map (·.demand)
        frost := s.zones.map (·.frostEmergency) } } } ∧
    ∀ (z : Zone) (ready : Bool), takeFlowReady z ready s =
      testPermitted s.firing.picture.served { s with firing := { s.firing with
        picture := { s.firing.picture with flowReady := s.firing.picture.flowReady.set z ready } } }) ∧
  (∀ s : Machine.State,
    (s.firing.state = .anticycle →
      (¬ s.mayFire → frostEvent s = (frostEvent s).withNoticesOf (s.firingAt .off) ∧
        s.noticed ⟨.firingState, .none, s.now, [4, 0, 7]⟩ (frostEvent s)) ∧
      (s.mayFire → frostEvent s = (frostEvent s).withNoticesOf (s.firingAt .requesting))) ∧
    (s.firing.state = .runout → frostEvent s = { s with firing := { s.firing with frostSkip := true } }) ∧
    (s.firing.state ≠ .anticycle → s.firing.state ≠ .runout → frostEvent s = s))

/-! ### What every step keeps -/

/-- At every step, in every state that keeps them: every port's notice queue to its 32 records, and its attention
output to its rule;
the outbound queue to 8 frames, the receive queue to 16 slots with its reservation; while the part sends, a line of its
own, and the control slot and its pending order to the last order;
the Store Arbiter, which rests only with an empty waiting set, the store orders of the Report Processor, and a port
that discards only what is on its way;
the valve channels: a queue of at most 8 entries with at most one unstarted LOOP, the MOVING channels in the three slots
and the WAITING ones on the list, each once, nobody waiting while a slot is free; open_confirmed by its rule, a zone
flow_ready when one of its channels is open_confirmed, and its valve count.
Two clauses of senderSound are the model's choices: that the outbound head has a deferral wait only while the control
slot is empty (log 45), and that the line stays BUSY while the part sends, whatever STOP or START of another member
comes at a byte boundary (log 44).
Rests on the model's choices of logs 44 and 45. -/
def Obligations.EveryStepKeepsTheArbiterAndTheQueuesSound : Prop :=
  (∀ s t : Machine.State, s.portsSound → step s = .next t → t.portsSound) ∧
  (∀ s t : Machine.State, s.busSound → step s = .next t → t.busSound) ∧
  (∀ s t : Machine.State, s.senderSound → step s = .next t → t.senderSound) ∧
  (∀ s t : Machine.State, s.arbiterSound → step s = .next t → t.arbiterSound) ∧
  (∀ s t : Machine.State, s.valvesSound → step s = .next t → t.valvesSound)

/-- The free records and the records on the lists make 512, every list rises and keeps to 64, and no stack holds a
BOOST with a locked HOLD, at every step. No two occupied records of the registry hold the same address, at every
step. -/
def Obligations.EveryStepKeepsThePointPoolAndTheStacks : Prop :=
  ∀ s t : Machine.State, step s = .next t → (s.poolSound → t.poolSound) ∧ (s.stacksSound → t.stacksSound) ∧
    (s.registrySound → t.registrySound)

/-- Every resolved_target lies between frost_floor and max_target, at every step.
The heat call list holds the CALLING zones, each once, at every step.
In REQUESTING and FIRING the dump flag is clear, and a served zone of the heat call list is flow_ready, or
bypass_enable is on, at every step; a zone in frost emergency calls. -/
def Obligations.EveryStepKeepsTargetsAndCalls : Prop :=
  (∀ s t : Machine.State, s.targetsSound → step s = .next t → t.targetsSound) ∧
  (∀ s t : Machine.State, s.callsSound → step s = .next t → t.callsSound) ∧
  (∀ s t : Machine.State, s.callsSound → s.heatSound → step s = .next t → t.heatSound)

/-- All of these hold right after a device reset. -/
def Obligations.TheInvariantsHoldAfterReset : Prop :=
  Machine.State.reset.portsSound ∧ Machine.State.reset.poolSound ∧ Machine.State.reset.stacksSound ∧
    Machine.State.reset.targetsSound ∧ Machine.State.reset.callsSound ∧ Machine.State.reset.busSound ∧
    Machine.State.reset.senderSound ∧
    Machine.State.reset.arbiterSound ∧ Machine.State.reset.valvesSound ∧ Machine.State.reset.registrySound ∧
    Machine.State.reset.heatSound

end
end

