-- ==== Sys2Proof/Laws/Flags.lean ====
section
/-! SUPPORT. What the judgements answer: resolution lies within its limits, an edit keeps a list in order, and
the backoff register computed by squaring is the register stepped period by period. -/

namespace Sys2Proof.Machine

set_option Elab.async false

/-! ### Bytes of the burner link (R202) -/

/-- A byte spells on arrival what it was sent as. -/
@[simp] theorem linkValue_linkByteOf (v : Byte) : linkValue (linkByteOf v) = v := by
  revert v
  decide +kernel

@[simp] theorem stopLow_linkByteOf (v : Byte) : (linkByteOf v).stopLow = false := rfl

/-- A byte takes ten bit times. -/
@[simp] theorem length_linkByteLevels (b : LinkByte) : (linkByteLevels b).length = 10 := by
  simp [linkByteLevels]

/-! ### Resolution (R58) -/

/-- Every resolved target lies between the limits. -/
theorem resolve_within_limits (mode : ServiceMode) (base : Int) (st : Stack) (floor max : Int) (h : floor ≤ max) :
    floor ≤ (resolve mode base st floor max).1 ∧ (resolve mode base st floor max).1 ≤ max := by
  simp only [resolve]
  generalize (if mode = .off ∧ st.window = false then (floor, Basis.floor) else _ : Int × Basis) = r
  split
  · exact ⟨Int.le_refl _, h⟩
  · split
    · exact ⟨h, Int.le_refl _⟩
    · omega

/-! ### Lists of points (R38 to R41) -/

theorem mem_insertPoint (p q : Point) (l : List Point) : q ∈ insertPoint p l ↔ q = p ∨ q ∈ l := by
  induction l with
  | nil => simp [insertPoint]
  | cons x l ih =>
    simp only [insertPoint]
    split
    · simp
    · simp only [List.mem_cons, ih]
      exact or_left_comm

theorem length_insertPoint (p : Point) (l : List Point) : (insertPoint p l).length = l.length + 1 := by
  induction l with
  | nil => rfl
  | cons x l ih =>
    simp only [insertPoint]
    split <;> simp [ih]

/-- A point with a minute no other has keeps the list strictly increasing. -/
theorem pairwise_insertPoint (p : Point) (l : List Point) (h : l.Pairwise (fun a b => a.minute < b.minute))
    (hp : ∀ q ∈ l, q.minute ≠ p.minute) : (insertPoint p l).Pairwise (fun a b => a.minute < b.minute) := by
  induction l with
  | nil => simp [insertPoint]
  | cons x l ih =>
    have hx : ∀ q ∈ l, x.minute < q.minute := fun q hq => List.rel_of_pairwise_cons h hq
    have hne := hp x List.mem_cons_self
    simp only [insertPoint]
    split
    · rename_i hlt
      refine List.pairwise_cons.2 ⟨fun q hq => ?_, h⟩
      rcases List.mem_cons.1 hq with rfl | hq
      · exact hlt
      · exact Nat.lt_trans hlt (hx q hq)
    · refine List.pairwise_cons.2 ⟨fun q hq => ?_, ih h.of_cons fun q hq => hp q (List.mem_cons_of_mem _ hq)⟩
      rcases (mem_insertPoint p q l).1 hq with rfl | hq
      · omega
      · exact hx q hq

theorem mem_sortPoints (q : Point) (l : List Point) : q ∈ sortPoints l ↔ q ∈ l := by
  induction l with
  | nil => rfl
  | cons x l ih => simp [sortPoints, mem_insertPoint] at ih ⊢; rw [ih]

theorem length_sortPoints (l : List Point) : (sortPoints l).length = l.length := by
  induction l with
  | nil => rfl
  | cons x l ih => simp [sortPoints, length_insertPoint] at ih ⊢; exact ih

/-- Points with minutes that differ are sorted into a strictly increasing list. -/
theorem pairwise_sortPoints (l : List Point) (h : (l.map (·.minute)).Nodup) :
    (sortPoints l).Pairwise (fun a b => a.minute < b.minute) := by
  induction l with
  | nil => simp [sortPoints]
  | cons x l ih =>
    rw [List.map_cons, List.nodup_cons] at h
    have : sortPoints (x :: l) = insertPoint x (sortPoints l) := rfl
    rw [this]
    refine pairwise_insertPoint x _ (ih h.2) fun q hq hm => h.1 ?_
    rw [mem_sortPoints] at hq
    exact List.mem_map.2 ⟨q, hq, hm⟩

/-- No repeat found: the members seen and the list hold every value once. -/
theorem nodup_of_firstRepeat {α : Type} [DecidableEq α] (seen l : List α) (i : Nat) (h : firstRepeat seen i l = none) :
    l.Nodup ∧ ∀ x ∈ l, x ∉ seen := by
  induction l generalizing seen i with
  | nil => simp
  | cons x l ih =>
    simp only [firstRepeat] at h
    split at h
    · cases h
    · rename_i hx
      have := ih _ _ h
      refine ⟨List.nodup_cons.2 ⟨fun hm => this.2 x hm List.mem_cons_self, this.1⟩, fun y hy => ?_⟩
      rcases List.mem_cons.1 hy with rfl | hy
      · exact hx
      · exact fun hs => this.2 y hy (List.mem_cons_of_mem _ hs)

/-- No fault found: every member passes the test. -/
theorem all_of_firstFault {α : Type} (ok : α → Bool) (l : List α) (i : Nat) (h : firstFault ok i l = none) :
    ∀ x ∈ l, ok x = true := by
  induction l generalizing i with
  | nil => simp
  | cons x l ih =>
    simp only [firstFault] at h
    split at h
    · rename_i hx
      intro y hy
      rcases List.mem_cons.1 hy with rfl | hy
      · exact hx
      · exact ih _ h y hy
    · cases h

/-! ### Overrides (R47) -/

/-- Lowering a HOLD's count leaves its lock as it was. -/
theorem locked_of_lower {m : Nat} {h k : Hold} (e : h.lower m = some k) : k.locked = h.locked := by
  simp only [Hold.lower] at e
  split at e
  · split at e
    · cases e
    · cases e; rfl
  · cases e; rfl

/-! ### The backoff register (R110) -/


theorem bool_xor_swap (a b c d e f g h : Bool) :
    ((a ^^ b) ^^ (c ^^ d) ^^ (e ^^ f) ^^ (g ^^ h)) = ((a ^^ c ^^ e ^^ g) ^^ (b ^^ d ^^ f ^^ h)) := by
  cases a <;> cases b <;> cases c <;> cases d <;> cases e <;> cases f <;> cases g <;> cases h <;> rfl

theorem lfsrStep_xor (a b : BitVec 16) : lfsrStep (a ^^^ b) = lfsrStep a ^^^ lfsrStep b := by
  apply BitVec.eq_of_getLsbD_eq
  intro i hi
  simp only [lfsrStep, BitVec.getLsbD_or, BitVec.getLsbD_xor, BitVec.getLsbD_shiftLeft, BitVec.getLsbD_setWidth,
    BitVec.getLsbD_ofBool, bool_xor_swap]
  rcases i with _ | i
  · simp
  · simp [hi]

def lfsrBasis : List (BitVec 16) := (List.range 16).map fun i => (1#16) <<< i

/-- The columns of a linear map determine it. -/
theorem lfsrApply_columns (f : BitVec 16 → BitVec 16) (h : ∀ a b, f (a ^^^ b) = f a ^^^ f b) (v : BitVec 16) :
    lfsrApply ((List.range 16).map fun i => f ((1#16) <<< i)) v = f v := by
  have h0 : f 0 = 0 := by
    have := h 0 0
    simpa using this
  have hi : ∀ (b : Bool) (x : BitVec 16), (if b then f x else 0) = f (if b then x else 0) := by
    intro b x; cases b
    · exact h0.symm
    · rfl
  have key : lfsrApply lfsrBasis v = v := by
    apply BitVec.eq_of_getLsbD_eq
    intro i hi
    have : i = 0 ∨ i = 1 ∨ i = 2 ∨ i = 3 ∨ i = 4 ∨ i = 5 ∨ i = 6 ∨ i = 7 ∨ i = 8 ∨ i = 9 ∨ i = 10 ∨ i = 11 ∨
      i = 12 ∨ i = 13 ∨ i = 14 ∨ i = 15 := by omega
    have sel : ∀ (b : Bool) (x : BitVec 16) (j : Nat), (if b then x else 0#16).getLsbD j = (b && x.getLsbD j) := by
      intro b x j; cases b <;> simp
    have sel' : ∀ (b : Bool) (x : BitVec 16) (j : Nat) (hj : j < 16),
        (if b then x else 0#16)[j] = (b && x[j]) := by
      intro b x j hj; cases b <;> simp
    rcases this with h | h | h | h | h | h | h | h | h | h | h | h | h | h | h | h <;> subst h <;>
      simp only [lfsrBasis, List.range, List.range.loop, List.map, lfsrApply, BitVec.getLsbD_xor,
        BitVec.getLsbD_ushiftRight] <;> simp [sel']
  conv => rhs; rw [← key]
  simp only [lfsrBasis, List.range, List.range.loop, List.map, lfsrApply, hi, h, h0]


/-- The table of a linear map. -/
def linearTable (f : BitVec 16 → BitVec 16) : List (BitVec 16) := (List.range 16).map fun i => f (1 <<< i)

theorem lfsrPower_columns (fuel n : Nat) (f : BitVec 16 → BitVec 16) (h : ∀ a b, f (a ^^^ b) = f a ^^^ f b)
    (hn : n < 2 ^ fuel) (v : BitVec 16) : lfsrPower fuel n (linearTable f) v = f^[n] v := by
  induction fuel generalizing n f v with
  | zero =>
    have : n = 0 := by simpa using hn
    subst this; rfl
  | succ k ih =>
    have hm : (linearTable f).map (lfsrApply (linearTable f)) = linearTable (fun x => f (f x)) := by
      simp only [linearTable, List.map_map]
      apply List.map_congr_left
      intro i _
      exact lfsrApply_columns f h _
    have h2 : n / 2 < 2 ^ k := by omega
    have hl : ∀ a b, f (f (a ^^^ b)) = f (f a) ^^^ f (f b) := by
      intro a b; rw [h, h]
    rw [lfsrPower, hm, ih (n / 2) (fun x => f (f x)) hl h2]
    have it : ∀ (m : Nat) (x : BitVec 16), (fun x => f (f x))^[m] x = f^[2 * m] x := by
      intro m
      induction m with
      | zero => intro x; rfl
      | succ m ihm =>
        intro x
        rw [Function.iterate_succ_apply, ihm]
        rw [show 2 * (m + 1) = 2 * m + 2 by omega, Function.iterate_add_apply]
        rfl
    rw [it]
    split
    · rename_i ho
      have := lfsrApply_columns f h v
      rw [show lfsrApply (linearTable f) v = f v from this, ← Function.iterate_succ_apply]
      congr 1; omega
    · congr 1; omega

theorem lfsrIter_eq (n : Nat) (v : BitVec 16) : lfsrIter n v = lfsrStep^[n] v := by
  induction n generalizing v with
  | zero => rfl
  | succ n ih => rw [lfsrIter, ih, ← Function.iterate_succ_apply]

theorem lfsrRun_eq_iter (n : Nat) (v : BitVec 16) : lfsrRun n v = lfsrIter n v := by
  rw [lfsrIter_eq]
  exact lfsrPower_columns _ n lfsrStep lfsrStep_xor Nat.lt_log2_self v

end Sys2Proof.Machine
end

