-- ==== Sys2Proof/Laws/State.lean ====
section
/-! SUPPORT. One lemma per field and update of the state, true by rfl, so that no proof unfolds a record
update. -/

namespace Sys2Proof.Machine

set_option Elab.async false

variable (s : State)

/-! ### The queue of commands -/

@[simp] theorem clock_withPending (l : List Instr) : ({ s with pending := l } : State).clock = s.clock := rfl
@[simp] theorem written_withPending (l : List Instr) : ({ s with pending := l } : State).written = s.written := rfl
@[simp] theorem taken_withPending (l : List Instr) : ({ s with pending := l } : State).taken = s.taken := rfl
@[simp] theorem zones_withPending (l : List Instr) : ({ s with pending := l } : State).zones = s.zones := rfl
@[simp] theorem store_withPending (l : List Instr) : ({ s with pending := l } : State).store = s.store := rfl
@[simp] theorem arbiter_withPending (l : List Instr) : ({ s with pending := l } : State).arbiter = s.arbiter := rfl
@[simp] theorem demand_withPending (l : List Instr) : ({ s with pending := l } : State).demand = s.demand := rfl
@[simp] theorem contacts_withPending (l : List Instr) : ({ s with pending := l } : State).contacts = s.contacts := rfl
@[simp] theorem bus_withPending (l : List Instr) : ({ s with pending := l } : State).bus = s.bus := rfl
@[simp] theorem report_withPending (l : List Instr) : ({ s with pending := l } : State).report = s.report := rfl
@[simp] theorem valves_withPending (l : List Instr) : ({ s with pending := l } : State).valves = s.valves := rfl
@[simp] theorem firing_withPending (l : List Instr) : ({ s with pending := l } : State).firing = s.firing := rfl
@[simp] theorem link_withPending (l : List Instr) : ({ s with pending := l } : State).link = s.link := rfl
@[simp] theorem portA_withPending (l : List Instr) : ({ s with pending := l } : State).portA = s.portA := rfl
@[simp] theorem portB_withPending (l : List Instr) : ({ s with pending := l } : State).portB = s.portB := rfl

/-! ### modZone -/

@[simp] theorem pending_modZone (z : Zone) (f : ZoneRecord → ZoneRecord) : (s.modZone z f).pending = s.pending := rfl
@[simp] theorem clock_modZone (z : Zone) (f : ZoneRecord → ZoneRecord) : (s.modZone z f).clock = s.clock := rfl
@[simp] theorem written_modZone (z : Zone) (f : ZoneRecord → ZoneRecord) : (s.modZone z f).written = s.written := rfl
@[simp] theorem taken_modZone (z : Zone) (f : ZoneRecord → ZoneRecord) : (s.modZone z f).taken = s.taken := rfl
@[simp] theorem store_modZone (z : Zone) (f : ZoneRecord → ZoneRecord) : (s.modZone z f).store = s.store := rfl
@[simp] theorem arbiter_modZone (z : Zone) (f : ZoneRecord → ZoneRecord) : (s.modZone z f).arbiter = s.arbiter := rfl
@[simp] theorem demand_modZone (z : Zone) (f : ZoneRecord → ZoneRecord) : (s.modZone z f).demand = s.demand := rfl
@[simp] theorem contacts_modZone (z : Zone) (f : ZoneRecord → ZoneRecord) : (s.modZone z f).contacts = s.contacts := rfl
@[simp] theorem bus_modZone (z : Zone) (f : ZoneRecord → ZoneRecord) : (s.modZone z f).bus = s.bus := rfl
@[simp] theorem report_modZone (z : Zone) (f : ZoneRecord → ZoneRecord) : (s.modZone z f).report = s.report := rfl
@[simp] theorem valves_modZone (z : Zone) (f : ZoneRecord → ZoneRecord) : (s.modZone z f).valves = s.valves := rfl
@[simp] theorem firing_modZone (z : Zone) (f : ZoneRecord → ZoneRecord) : (s.modZone z f).firing = s.firing := rfl
@[simp] theorem link_modZone (z : Zone) (f : ZoneRecord → ZoneRecord) : (s.modZone z f).link = s.link := rfl
@[simp] theorem portA_modZone (z : Zone) (f : ZoneRecord → ZoneRecord) : (s.modZone z f).portA = s.portA := rfl
@[simp] theorem portB_modZone (z : Zone) (f : ZoneRecord → ZoneRecord) : (s.modZone z f).portB = s.portB := rfl
@[simp] theorem zones_modZone (z : Zone) (f : ZoneRecord → ZoneRecord) :
    (s.modZone z f).zones = s.zones.set z (f s.zones[z]) := rfl

/-! ### modChannel -/

@[simp] theorem pending_modChannel (c : Channel) (f : ChannelRecord → ChannelRecord) : (s.modChannel c f).pending = s.pending := rfl
@[simp] theorem clock_modChannel (c : Channel) (f : ChannelRecord → ChannelRecord) : (s.modChannel c f).clock = s.clock := rfl
@[simp] theorem written_modChannel (c : Channel) (f : ChannelRecord → ChannelRecord) : (s.modChannel c f).written = s.written := rfl
@[simp] theorem taken_modChannel (c : Channel) (f : ChannelRecord → ChannelRecord) : (s.modChannel c f).taken = s.taken := rfl
@[simp] theorem zones_modChannel (c : Channel) (f : ChannelRecord → ChannelRecord) : (s.modChannel c f).zones = s.zones := rfl
@[simp] theorem store_modChannel (c : Channel) (f : ChannelRecord → ChannelRecord) : (s.modChannel c f).store = s.store := rfl
@[simp] theorem arbiter_modChannel (c : Channel) (f : ChannelRecord → ChannelRecord) : (s.modChannel c f).arbiter = s.arbiter := rfl
@[simp] theorem demand_modChannel (c : Channel) (f : ChannelRecord → ChannelRecord) : (s.modChannel c f).demand = s.demand := rfl
@[simp] theorem contacts_modChannel (c : Channel) (f : ChannelRecord → ChannelRecord) : (s.modChannel c f).contacts = s.contacts := rfl
@[simp] theorem bus_modChannel (c : Channel) (f : ChannelRecord → ChannelRecord) : (s.modChannel c f).bus = s.bus := rfl
@[simp] theorem report_modChannel (c : Channel) (f : ChannelRecord → ChannelRecord) : (s.modChannel c f).report = s.report := rfl
@[simp] theorem firing_modChannel (c : Channel) (f : ChannelRecord → ChannelRecord) : (s.modChannel c f).firing = s.firing := rfl
@[simp] theorem link_modChannel (c : Channel) (f : ChannelRecord → ChannelRecord) : (s.modChannel c f).link = s.link := rfl
@[simp] theorem portA_modChannel (c : Channel) (f : ChannelRecord → ChannelRecord) : (s.modChannel c f).portA = s.portA := rfl
@[simp] theorem portB_modChannel (c : Channel) (f : ChannelRecord → ChannelRecord) : (s.modChannel c f).portB = s.portB := rfl
@[simp] theorem channels_modChannel (c : Channel) (f : ChannelRecord → ChannelRecord) :
    (s.modChannel c f).valves.channels = s.valves.channels.set c (f s.valves.channels[c]) := rfl
@[simp] theorem slots_modChannel (c : Channel) (f : ChannelRecord → ChannelRecord) :
    (s.modChannel c f).valves.slots = s.valves.slots := rfl
@[simp] theorem waiting_modChannel (c : Channel) (f : ChannelRecord → ChannelRecord) :
    (s.modChannel c f).valves.waiting = s.valves.waiting := rfl

/-! ### modStack -/

@[simp] theorem pending_modStack (z : Zone) (f : Stack → Stack) : (s.modStack z f).pending = s.pending := rfl
@[simp] theorem clock_modStack (z : Zone) (f : Stack → Stack) : (s.modStack z f).clock = s.clock := rfl
@[simp] theorem written_modStack (z : Zone) (f : Stack → Stack) : (s.modStack z f).written = s.written := rfl
@[simp] theorem taken_modStack (z : Zone) (f : Stack → Stack) : (s.modStack z f).taken = s.taken := rfl
@[simp] theorem zones_modStack (z : Zone) (f : Stack → Stack) : (s.modStack z f).zones = s.zones := rfl
@[simp] theorem arbiter_modStack (z : Zone) (f : Stack → Stack) : (s.modStack z f).arbiter = s.arbiter := rfl
@[simp] theorem demand_modStack (z : Zone) (f : Stack → Stack) : (s.modStack z f).demand = s.demand := rfl
@[simp] theorem contacts_modStack (z : Zone) (f : Stack → Stack) : (s.modStack z f).contacts = s.contacts := rfl
@[simp] theorem bus_modStack (z : Zone) (f : Stack → Stack) : (s.modStack z f).bus = s.bus := rfl
@[simp] theorem report_modStack (z : Zone) (f : Stack → Stack) : (s.modStack z f).report = s.report := rfl
@[simp] theorem valves_modStack (z : Zone) (f : Stack → Stack) : (s.modStack z f).valves = s.valves := rfl
@[simp] theorem firing_modStack (z : Zone) (f : Stack → Stack) : (s.modStack z f).firing = s.firing := rfl
@[simp] theorem link_modStack (z : Zone) (f : Stack → Stack) : (s.modStack z f).link = s.link := rfl
@[simp] theorem portA_modStack (z : Zone) (f : Stack → Stack) : (s.modStack z f).portA = s.portA := rfl
@[simp] theorem portB_modStack (z : Zone) (f : Stack → Stack) : (s.modStack z f).portB = s.portB := rfl
@[simp] theorem stacks_modStack (z : Zone) (f : Stack → Stack) :
    (s.modStack z f).store.overrides = s.store.overrides.set z (f s.store.overrides[z]) := rfl
@[simp] theorem free_modStack (z : Zone) (f : Stack → Stack) : (s.modStack z f).store.free = s.store.free := rfl
@[simp] theorem lists_modStack (z : Zone) (f : Stack → Stack) : (s.modStack z f).store.lists = s.store.lists := rfl
@[simp] theorem revisions_modStack (z : Zone) (f : Stack → Stack) :
    (s.modStack z f).store.revisions = s.store.revisions := rfl
@[simp] theorem current_modStack (z : Zone) (f : Stack → Stack) :
    (s.modStack z f).store.current = s.store.current := rfl
@[simp] theorem claims_modStack (z : Zone) (f : Stack → Stack) :
    (s.modStack z f).store.claims = s.store.claims := rfl

/-! ### setClaim -/

@[simp] theorem pending_setClaim (c : ClaimIx) (h : Option Held) : (s.setClaim c h).pending = s.pending := rfl
@[simp] theorem clock_setClaim (c : ClaimIx) (h : Option Held) : (s.setClaim c h).clock = s.clock := rfl
@[simp] theorem written_setClaim (c : ClaimIx) (h : Option Held) : (s.setClaim c h).written = s.written := rfl
@[simp] theorem taken_setClaim (c : ClaimIx) (h : Option Held) : (s.setClaim c h).taken = s.taken := rfl
@[simp] theorem zones_setClaim (c : ClaimIx) (h : Option Held) : (s.setClaim c h).zones = s.zones := rfl
@[simp] theorem arbiter_setClaim (c : ClaimIx) (h : Option Held) : (s.setClaim c h).arbiter = s.arbiter := rfl
@[simp] theorem demand_setClaim (c : ClaimIx) (h : Option Held) : (s.setClaim c h).demand = s.demand := rfl
@[simp] theorem contacts_setClaim (c : ClaimIx) (h : Option Held) : (s.setClaim c h).contacts = s.contacts := rfl
@[simp] theorem bus_setClaim (c : ClaimIx) (h : Option Held) : (s.setClaim c h).bus = s.bus := rfl
@[simp] theorem report_setClaim (c : ClaimIx) (h : Option Held) : (s.setClaim c h).report = s.report := rfl
@[simp] theorem valves_setClaim (c : ClaimIx) (h : Option Held) : (s.setClaim c h).valves = s.valves := rfl
@[simp] theorem firing_setClaim (c : ClaimIx) (h : Option Held) : (s.setClaim c h).firing = s.firing := rfl
@[simp] theorem link_setClaim (c : ClaimIx) (h : Option Held) : (s.setClaim c h).link = s.link := rfl
@[simp] theorem portA_setClaim (c : ClaimIx) (h : Option Held) : (s.setClaim c h).portA = s.portA := rfl
@[simp] theorem portB_setClaim (c : ClaimIx) (h : Option Held) : (s.setClaim c h).portB = s.portB := rfl
@[simp] theorem claims_setClaim (c : ClaimIx) (h : Option Held) :
    (s.setClaim c h).store.claims = s.store.claims.set c h := rfl
@[simp] theorem free_setClaim (c : ClaimIx) (h : Option Held) : (s.setClaim c h).store.free = s.store.free := rfl
@[simp] theorem lists_setClaim (c : ClaimIx) (h : Option Held) :
    (s.setClaim c h).store.lists = s.store.lists := rfl
@[simp] theorem revisions_setClaim (c : ClaimIx) (h : Option Held) :
    (s.setClaim c h).store.revisions = s.store.revisions := rfl
@[simp] theorem current_setClaim (c : ClaimIx) (h : Option Held) :
    (s.setClaim c h).store.current = s.store.current := rfl
@[simp] theorem stacks_setClaim (c : ClaimIx) (h : Option Held) :
    (s.setClaim c h).store.overrides = s.store.overrides := rfl

/-! ### setUnit -/

@[simp] theorem pending_setUnit (u : UnitIx) (r : Option UnitRecord) : (s.setUnit u r).pending = s.pending := rfl
@[simp] theorem clock_setUnit (u : UnitIx) (r : Option UnitRecord) : (s.setUnit u r).clock = s.clock := rfl
@[simp] theorem written_setUnit (u : UnitIx) (r : Option UnitRecord) : (s.setUnit u r).written = s.written := rfl
@[simp] theorem taken_setUnit (u : UnitIx) (r : Option UnitRecord) : (s.setUnit u r).taken = s.taken := rfl
@[simp] theorem zones_setUnit (u : UnitIx) (r : Option UnitRecord) : (s.setUnit u r).zones = s.zones := rfl
@[simp] theorem store_setUnit (u : UnitIx) (r : Option UnitRecord) : (s.setUnit u r).store = s.store := rfl
@[simp] theorem arbiter_setUnit (u : UnitIx) (r : Option UnitRecord) : (s.setUnit u r).arbiter = s.arbiter := rfl
@[simp] theorem demand_setUnit (u : UnitIx) (r : Option UnitRecord) : (s.setUnit u r).demand = s.demand := rfl
@[simp] theorem contacts_setUnit (u : UnitIx) (r : Option UnitRecord) : (s.setUnit u r).contacts = s.contacts := rfl
@[simp] theorem bus_setUnit (u : UnitIx) (r : Option UnitRecord) : (s.setUnit u r).bus = s.bus := rfl
@[simp] theorem valves_setUnit (u : UnitIx) (r : Option UnitRecord) : (s.setUnit u r).valves = s.valves := rfl
@[simp] theorem firing_setUnit (u : UnitIx) (r : Option UnitRecord) : (s.setUnit u r).firing = s.firing := rfl
@[simp] theorem link_setUnit (u : UnitIx) (r : Option UnitRecord) : (s.setUnit u r).link = s.link := rfl
@[simp] theorem portA_setUnit (u : UnitIx) (r : Option UnitRecord) : (s.setUnit u r).portA = s.portA := rfl
@[simp] theorem portB_setUnit (u : UnitIx) (r : Option UnitRecord) : (s.setUnit u r).portB = s.portB := rfl
@[simp] theorem registry_setUnit (u : UnitIx) (r : Option UnitRecord) :
    (s.setUnit u r).report.registry = s.report.registry.set u r := rfl
@[simp] theorem queue_setUnit (u : UnitIx) (r : Option UnitRecord) :
    (s.setUnit u r).report.queue = s.report.queue := rfl
@[simp] theorem reserved_setUnit (u : UnitIx) (r : Option UnitRecord) :
    (s.setUnit u r).report.reserved = s.report.reserved := rfl
@[simp] theorem headRaised_setUnit (u : UnitIx) (r : Option UnitRecord) :
    (s.setUnit u r).report.headRaised = s.report.headRaised := rfl
@[simp] theorem holdOff_setUnit (u : UnitIx) (r : Option UnitRecord) :
    (s.setUnit u r).report.holdOff = s.report.holdOff := rfl
@[simp] theorem storeOrders_setUnit (u : UnitIx) (r : Option UnitRecord) :
    (s.setUnit u r).report.storeOrders = s.report.storeOrders := rfl

/-! ### setWaiting -/

@[simp] theorem pending_setWaiting (q : Requester) (r : Option StoreReq) : (s.setWaiting q r).pending = s.pending := rfl
@[simp] theorem clock_setWaiting (q : Requester) (r : Option StoreReq) : (s.setWaiting q r).clock = s.clock := rfl
@[simp] theorem written_setWaiting (q : Requester) (r : Option StoreReq) : (s.setWaiting q r).written = s.written := rfl
@[simp] theorem taken_setWaiting (q : Requester) (r : Option StoreReq) : (s.setWaiting q r).taken = s.taken := rfl
@[simp] theorem zones_setWaiting (q : Requester) (r : Option StoreReq) : (s.setWaiting q r).zones = s.zones := rfl
@[simp] theorem store_setWaiting (q : Requester) (r : Option StoreReq) : (s.setWaiting q r).store = s.store := rfl
@[simp] theorem demand_setWaiting (q : Requester) (r : Option StoreReq) : (s.setWaiting q r).demand = s.demand := rfl
@[simp] theorem contacts_setWaiting (q : Requester) (r : Option StoreReq) : (s.setWaiting q r).contacts = s.contacts := rfl
@[simp] theorem bus_setWaiting (q : Requester) (r : Option StoreReq) : (s.setWaiting q r).bus = s.bus := rfl
@[simp] theorem report_setWaiting (q : Requester) (r : Option StoreReq) : (s.setWaiting q r).report = s.report := rfl
@[simp] theorem valves_setWaiting (q : Requester) (r : Option StoreReq) : (s.setWaiting q r).valves = s.valves := rfl
@[simp] theorem firing_setWaiting (q : Requester) (r : Option StoreReq) : (s.setWaiting q r).firing = s.firing := rfl
@[simp] theorem link_setWaiting (q : Requester) (r : Option StoreReq) : (s.setWaiting q r).link = s.link := rfl
@[simp] theorem portA_setWaiting (q : Requester) (r : Option StoreReq) : (s.setWaiting q r).portA = s.portA := rfl
@[simp] theorem portB_setWaiting (q : Requester) (r : Option StoreReq) : (s.setWaiting q r).portB = s.portB := rfl
@[simp] theorem waiting_setWaiting (q : Requester) (r : Option StoreReq) :
    (s.setWaiting q r).arbiter.waiting = s.arbiter.waiting.set q r := rfl
@[simp] theorem carrying_setWaiting (q : Requester) (r : Option StoreReq) :
    (s.setWaiting q r).arbiter.carrying = s.arbiter.carrying := rfl
@[simp] theorem parked_setWaiting (q : Requester) (r : Option StoreReq) :
    (s.setWaiting q r).arbiter.parked = s.arbiter.parked := rfl

/-! ### setOutbound -/

@[simp] theorem pending_setOutbound (l : List OutFrame) : (s.setOutbound l).pending = s.pending := rfl
@[simp] theorem clock_setOutbound (l : List OutFrame) : (s.setOutbound l).clock = s.clock := rfl
@[simp] theorem written_setOutbound (l : List OutFrame) : (s.setOutbound l).written = s.written := rfl
@[simp] theorem taken_setOutbound (l : List OutFrame) : (s.setOutbound l).taken = s.taken := rfl
@[simp] theorem zones_setOutbound (l : List OutFrame) : (s.setOutbound l).zones = s.zones := rfl
@[simp] theorem store_setOutbound (l : List OutFrame) : (s.setOutbound l).store = s.store := rfl
@[simp] theorem arbiter_setOutbound (l : List OutFrame) : (s.setOutbound l).arbiter = s.arbiter := rfl
@[simp] theorem demand_setOutbound (l : List OutFrame) : (s.setOutbound l).demand = s.demand := rfl
@[simp] theorem contacts_setOutbound (l : List OutFrame) : (s.setOutbound l).contacts = s.contacts := rfl
@[simp] theorem report_setOutbound (l : List OutFrame) : (s.setOutbound l).report = s.report := rfl
@[simp] theorem valves_setOutbound (l : List OutFrame) : (s.setOutbound l).valves = s.valves := rfl
@[simp] theorem firing_setOutbound (l : List OutFrame) : (s.setOutbound l).firing = s.firing := rfl
@[simp] theorem link_setOutbound (l : List OutFrame) : (s.setOutbound l).link = s.link := rfl
@[simp] theorem portA_setOutbound (l : List OutFrame) : (s.setOutbound l).portA = s.portA := rfl
@[simp] theorem portB_setOutbound (l : List OutFrame) : (s.setOutbound l).portB = s.portB := rfl
@[simp] theorem bus_setOutbound (l : List OutFrame) : (s.setOutbound l).bus = { s.bus with outbound := l } := rfl

/-! ### setHoldOff -/

@[simp] theorem pending_setHoldOff (h : HoldOffState) : (s.setHoldOff h).pending = s.pending := rfl
@[simp] theorem clock_setHoldOff (h : HoldOffState) : (s.setHoldOff h).clock = s.clock := rfl
@[simp] theorem written_setHoldOff (h : HoldOffState) : (s.setHoldOff h).written = s.written := rfl
@[simp] theorem taken_setHoldOff (h : HoldOffState) : (s.setHoldOff h).taken = s.taken := rfl
@[simp] theorem zones_setHoldOff (h : HoldOffState) : (s.setHoldOff h).zones = s.zones := rfl
@[simp] theorem store_setHoldOff (h : HoldOffState) : (s.setHoldOff h).store = s.store := rfl
@[simp] theorem arbiter_setHoldOff (h : HoldOffState) : (s.setHoldOff h).arbiter = s.arbiter := rfl
@[simp] theorem demand_setHoldOff (h : HoldOffState) : (s.setHoldOff h).demand = s.demand := rfl
@[simp] theorem contacts_setHoldOff (h : HoldOffState) : (s.setHoldOff h).contacts = s.contacts := rfl
@[simp] theorem bus_setHoldOff (h : HoldOffState) : (s.setHoldOff h).bus = s.bus := rfl
@[simp] theorem valves_setHoldOff (h : HoldOffState) : (s.setHoldOff h).valves = s.valves := rfl
@[simp] theorem firing_setHoldOff (h : HoldOffState) : (s.setHoldOff h).firing = s.firing := rfl
@[simp] theorem link_setHoldOff (h : HoldOffState) : (s.setHoldOff h).link = s.link := rfl
@[simp] theorem portA_setHoldOff (h : HoldOffState) : (s.setHoldOff h).portA = s.portA := rfl
@[simp] theorem portB_setHoldOff (h : HoldOffState) : (s.setHoldOff h).portB = s.portB := rfl
@[simp] theorem report_setHoldOff (h : HoldOffState) :
    (s.setHoldOff h).report = { s.report with holdOff := h } := rfl

/-! ### setReserved -/

@[simp] theorem pending_setReserved (b : Bool) : (s.setReserved b).pending = s.pending := rfl
@[simp] theorem clock_setReserved (b : Bool) : (s.setReserved b).clock = s.clock := rfl
@[simp] theorem written_setReserved (b : Bool) : (s.setReserved b).written = s.written := rfl
@[simp] theorem taken_setReserved (b : Bool) : (s.setReserved b).taken = s.taken := rfl
@[simp] theorem zones_setReserved (b : Bool) : (s.setReserved b).zones = s.zones := rfl
@[simp] theorem store_setReserved (b : Bool) : (s.setReserved b).store = s.store := rfl
@[simp] theorem arbiter_setReserved (b : Bool) : (s.setReserved b).arbiter = s.arbiter := rfl
@[simp] theorem demand_setReserved (b : Bool) : (s.setReserved b).demand = s.demand := rfl
@[simp] theorem contacts_setReserved (b : Bool) : (s.setReserved b).contacts = s.contacts := rfl
@[simp] theorem bus_setReserved (b : Bool) : (s.setReserved b).bus = s.bus := rfl
@[simp] theorem valves_setReserved (b : Bool) : (s.setReserved b).valves = s.valves := rfl
@[simp] theorem firing_setReserved (b : Bool) : (s.setReserved b).firing = s.firing := rfl
@[simp] theorem link_setReserved (b : Bool) : (s.setReserved b).link = s.link := rfl
@[simp] theorem portA_setReserved (b : Bool) : (s.setReserved b).portA = s.portA := rfl
@[simp] theorem portB_setReserved (b : Bool) : (s.setReserved b).portB = s.portB := rfl
@[simp] theorem report_setReserved (b : Bool) : (s.setReserved b).report = { s.report with reserved := b } := rfl

/-! ### setRx -/

@[simp] theorem pending_setRx (rx : Option RxFrame) : (s.setRx rx).pending = s.pending := rfl
@[simp] theorem clock_setRx (rx : Option RxFrame) : (s.setRx rx).clock = s.clock := rfl
@[simp] theorem written_setRx (rx : Option RxFrame) : (s.setRx rx).written = s.written := rfl
@[simp] theorem taken_setRx (rx : Option RxFrame) : (s.setRx rx).taken = s.taken := rfl
@[simp] theorem zones_setRx (rx : Option RxFrame) : (s.setRx rx).zones = s.zones := rfl
@[simp] theorem store_setRx (rx : Option RxFrame) : (s.setRx rx).store = s.store := rfl
@[simp] theorem arbiter_setRx (rx : Option RxFrame) : (s.setRx rx).arbiter = s.arbiter := rfl
@[simp] theorem demand_setRx (rx : Option RxFrame) : (s.setRx rx).demand = s.demand := rfl
@[simp] theorem contacts_setRx (rx : Option RxFrame) : (s.setRx rx).contacts = s.contacts := rfl
@[simp] theorem report_setRx (rx : Option RxFrame) : (s.setRx rx).report = s.report := rfl
@[simp] theorem valves_setRx (rx : Option RxFrame) : (s.setRx rx).valves = s.valves := rfl
@[simp] theorem firing_setRx (rx : Option RxFrame) : (s.setRx rx).firing = s.firing := rfl
@[simp] theorem link_setRx (rx : Option RxFrame) : (s.setRx rx).link = s.link := rfl
@[simp] theorem portA_setRx (rx : Option RxFrame) : (s.setRx rx).portA = s.portA := rfl
@[simp] theorem portB_setRx (rx : Option RxFrame) : (s.setRx rx).portB = s.portB := rfl
@[simp] theorem bus_setRx (rx : Option RxFrame) : (s.setRx rx).bus = { s.bus with rx := rx } := rfl

/-! ### setAck -/

@[simp] theorem pending_setAck (a : Ack) : (s.setAck a).pending = s.pending := rfl
@[simp] theorem clock_setAck (a : Ack) : (s.setAck a).clock = s.clock := rfl
@[simp] theorem written_setAck (a : Ack) : (s.setAck a).written = s.written := rfl
@[simp] theorem taken_setAck (a : Ack) : (s.setAck a).taken = s.taken := rfl
@[simp] theorem zones_setAck (a : Ack) : (s.setAck a).zones = s.zones := rfl
@[simp] theorem store_setAck (a : Ack) : (s.setAck a).store = s.store := rfl
@[simp] theorem arbiter_setAck (a : Ack) : (s.setAck a).arbiter = s.arbiter := rfl
@[simp] theorem demand_setAck (a : Ack) : (s.setAck a).demand = s.demand := rfl
@[simp] theorem contacts_setAck (a : Ack) : (s.setAck a).contacts = s.contacts := rfl
@[simp] theorem report_setAck (a : Ack) : (s.setAck a).report = s.report := rfl
@[simp] theorem valves_setAck (a : Ack) : (s.setAck a).valves = s.valves := rfl
@[simp] theorem firing_setAck (a : Ack) : (s.setAck a).firing = s.firing := rfl
@[simp] theorem link_setAck (a : Ack) : (s.setAck a).link = s.link := rfl
@[simp] theorem portA_setAck (a : Ack) : (s.setAck a).portA = s.portA := rfl
@[simp] theorem portB_setAck (a : Ack) : (s.setAck a).portB = s.portB := rfl
@[simp] theorem bus_setAck (a : Ack) : (s.setAck a).bus = { s.bus with lastAck := a } := rfl

/-! ### setLine -/

@[simp] theorem pending_setLine (l : LineState) : (s.setLine l).pending = s.pending := rfl
@[simp] theorem clock_setLine (l : LineState) : (s.setLine l).clock = s.clock := rfl
@[simp] theorem written_setLine (l : LineState) : (s.setLine l).written = s.written := rfl
@[simp] theorem taken_setLine (l : LineState) : (s.setLine l).taken = s.taken := rfl
@[simp] theorem zones_setLine (l : LineState) : (s.setLine l).zones = s.zones := rfl
@[simp] theorem store_setLine (l : LineState) : (s.setLine l).store = s.store := rfl
@[simp] theorem arbiter_setLine (l : LineState) : (s.setLine l).arbiter = s.arbiter := rfl
@[simp] theorem demand_setLine (l : LineState) : (s.setLine l).demand = s.demand := rfl
@[simp] theorem contacts_setLine (l : LineState) : (s.setLine l).contacts = s.contacts := rfl
@[simp] theorem report_setLine (l : LineState) : (s.setLine l).report = s.report := rfl
@[simp] theorem valves_setLine (l : LineState) : (s.setLine l).valves = s.valves := rfl
@[simp] theorem firing_setLine (l : LineState) : (s.setLine l).firing = s.firing := rfl
@[simp] theorem link_setLine (l : LineState) : (s.setLine l).link = s.link := rfl
@[simp] theorem portA_setLine (l : LineState) : (s.setLine l).portA = s.portA := rfl
@[simp] theorem portB_setLine (l : LineState) : (s.setLine l).portB = s.portB := rfl
@[simp] theorem bus_setLine (l : LineState) : (s.setLine l).bus = { s.bus with line := l } := rfl

/-! ### abandonRecovery -/

@[simp] theorem pending_abandonRecovery : (abandonRecovery s).pending = s.pending := rfl
@[simp] theorem clock_abandonRecovery : (abandonRecovery s).clock = s.clock := rfl
@[simp] theorem written_abandonRecovery : (abandonRecovery s).written = s.written := rfl
@[simp] theorem taken_abandonRecovery : (abandonRecovery s).taken = s.taken := rfl
@[simp] theorem zones_abandonRecovery : (abandonRecovery s).zones = s.zones := rfl
@[simp] theorem store_abandonRecovery : (abandonRecovery s).store = s.store := rfl
@[simp] theorem arbiter_abandonRecovery : (abandonRecovery s).arbiter = s.arbiter := rfl
@[simp] theorem demand_abandonRecovery : (abandonRecovery s).demand = s.demand := rfl
@[simp] theorem contacts_abandonRecovery : (abandonRecovery s).contacts = s.contacts := rfl
@[simp] theorem report_abandonRecovery : (abandonRecovery s).report = s.report := rfl
@[simp] theorem valves_abandonRecovery : (abandonRecovery s).valves = s.valves := rfl
@[simp] theorem firing_abandonRecovery : (abandonRecovery s).firing = s.firing := rfl
@[simp] theorem link_abandonRecovery : (abandonRecovery s).link = s.link := rfl
@[simp] theorem portA_abandonRecovery : (abandonRecovery s).portA = s.portA := rfl
@[simp] theorem portB_abandonRecovery : (abandonRecovery s).portB = s.portB := rfl
@[simp] theorem bus_abandonRecovery :
    (abandonRecovery s).bus = { s.bus with errState := .stuck, syncing := false } := rfl

/-! ### beginSync -/

@[simp] theorem pending_beginSync : (beginSync s).pending = s.pending := rfl
@[simp] theorem clock_beginSync : (beginSync s).clock = s.clock := rfl
@[simp] theorem written_beginSync : (beginSync s).written = s.written := rfl
@[simp] theorem taken_beginSync : (beginSync s).taken = s.taken := rfl
@[simp] theorem zones_beginSync : (beginSync s).zones = s.zones := rfl
@[simp] theorem store_beginSync : (beginSync s).store = s.store := rfl
@[simp] theorem arbiter_beginSync : (beginSync s).arbiter = s.arbiter := rfl
@[simp] theorem demand_beginSync : (beginSync s).demand = s.demand := rfl
@[simp] theorem contacts_beginSync : (beginSync s).contacts = s.contacts := rfl
@[simp] theorem report_beginSync : (beginSync s).report = s.report := rfl
@[simp] theorem valves_beginSync : (beginSync s).valves = s.valves := rfl
@[simp] theorem firing_beginSync : (beginSync s).firing = s.firing := rfl
@[simp] theorem link_beginSync : (beginSync s).link = s.link := rfl
@[simp] theorem portA_beginSync : (beginSync s).portA = s.portA := rfl
@[simp] theorem portB_beginSync : (beginSync s).portB = s.portB := rfl
@[simp] theorem bus_beginSync : (beginSync s).bus = { s.bus with syncing := true, line := .busy } := rfl

/-! ### modFiring -/

@[simp] theorem pending_modFiring (f : Firing → Firing) : (s.modFiring f).pending = s.pending := rfl
@[simp] theorem clock_modFiring (f : Firing → Firing) : (s.modFiring f).clock = s.clock := rfl
@[simp] theorem written_modFiring (f : Firing → Firing) : (s.modFiring f).written = s.written := rfl
@[simp] theorem taken_modFiring (f : Firing → Firing) : (s.modFiring f).taken = s.taken := rfl
@[simp] theorem zones_modFiring (f : Firing → Firing) : (s.modFiring f).zones = s.zones := rfl
@[simp] theorem store_modFiring (f : Firing → Firing) : (s.modFiring f).store = s.store := rfl
@[simp] theorem arbiter_modFiring (f : Firing → Firing) : (s.modFiring f).arbiter = s.arbiter := rfl
@[simp] theorem demand_modFiring (f : Firing → Firing) : (s.modFiring f).demand = s.demand := rfl
@[simp] theorem contacts_modFiring (f : Firing → Firing) : (s.modFiring f).contacts = s.contacts := rfl
@[simp] theorem bus_modFiring (f : Firing → Firing) : (s.modFiring f).bus = s.bus := rfl
@[simp] theorem report_modFiring (f : Firing → Firing) : (s.modFiring f).report = s.report := rfl
@[simp] theorem valves_modFiring (f : Firing → Firing) : (s.modFiring f).valves = s.valves := rfl
@[simp] theorem link_modFiring (f : Firing → Firing) : (s.modFiring f).link = s.link := rfl
@[simp] theorem portA_modFiring (f : Firing → Firing) : (s.modFiring f).portA = s.portA := rfl
@[simp] theorem portB_modFiring (f : Firing → Firing) : (s.modFiring f).portB = s.portB := rfl
@[simp] theorem firing_modFiring (f : Firing → Firing) : (s.modFiring f).firing = f s.firing := rfl

/-! ### modLink -/

@[simp] theorem pending_modLink (f : BurnerLink → BurnerLink) : (s.modLink f).pending = s.pending := rfl
@[simp] theorem clock_modLink (f : BurnerLink → BurnerLink) : (s.modLink f).clock = s.clock := rfl
@[simp] theorem written_modLink (f : BurnerLink → BurnerLink) : (s.modLink f).written = s.written := rfl
@[simp] theorem taken_modLink (f : BurnerLink → BurnerLink) : (s.modLink f).taken = s.taken := rfl
@[simp] theorem zones_modLink (f : BurnerLink → BurnerLink) : (s.modLink f).zones = s.zones := rfl
@[simp] theorem store_modLink (f : BurnerLink → BurnerLink) : (s.modLink f).store = s.store := rfl
@[simp] theorem arbiter_modLink (f : BurnerLink → BurnerLink) : (s.modLink f).arbiter = s.arbiter := rfl
@[simp] theorem demand_modLink (f : BurnerLink → BurnerLink) : (s.modLink f).demand = s.demand := rfl
@[simp] theorem contacts_modLink (f : BurnerLink → BurnerLink) : (s.modLink f).contacts = s.contacts := rfl
@[simp] theorem bus_modLink (f : BurnerLink → BurnerLink) : (s.modLink f).bus = s.bus := rfl
@[simp] theorem report_modLink (f : BurnerLink → BurnerLink) : (s.modLink f).report = s.report := rfl
@[simp] theorem valves_modLink (f : BurnerLink → BurnerLink) : (s.modLink f).valves = s.valves := rfl
@[simp] theorem firing_modLink (f : BurnerLink → BurnerLink) : (s.modLink f).firing = s.firing := rfl
@[simp] theorem portA_modLink (f : BurnerLink → BurnerLink) : (s.modLink f).portA = s.portA := rfl
@[simp] theorem portB_modLink (f : BurnerLink → BurnerLink) : (s.modLink f).portB = s.portB := rfl
@[simp] theorem link_modLink (f : BurnerLink → BurnerLink) : (s.modLink f).link = f s.link := rfl

/-! ### setLinkRx -/

@[simp] theorem pending_setLinkRx (rx : LinkRx) : (s.setLinkRx rx).pending = s.pending := rfl
@[simp] theorem clock_setLinkRx (rx : LinkRx) : (s.setLinkRx rx).clock = s.clock := rfl
@[simp] theorem written_setLinkRx (rx : LinkRx) : (s.setLinkRx rx).written = s.written := rfl
@[simp] theorem taken_setLinkRx (rx : LinkRx) : (s.setLinkRx rx).taken = s.taken := rfl
@[simp] theorem zones_setLinkRx (rx : LinkRx) : (s.setLinkRx rx).zones = s.zones := rfl
@[simp] theorem store_setLinkRx (rx : LinkRx) : (s.setLinkRx rx).store = s.store := rfl
@[simp] theorem arbiter_setLinkRx (rx : LinkRx) : (s.setLinkRx rx).arbiter = s.arbiter := rfl
@[simp] theorem demand_setLinkRx (rx : LinkRx) : (s.setLinkRx rx).demand = s.demand := rfl
@[simp] theorem contacts_setLinkRx (rx : LinkRx) : (s.setLinkRx rx).contacts = s.contacts := rfl
@[simp] theorem report_setLinkRx (rx : LinkRx) : (s.setLinkRx rx).report = s.report := rfl
@[simp] theorem valves_setLinkRx (rx : LinkRx) : (s.setLinkRx rx).valves = s.valves := rfl
@[simp] theorem firing_setLinkRx (rx : LinkRx) : (s.setLinkRx rx).firing = s.firing := rfl
@[simp] theorem portA_setLinkRx (rx : LinkRx) : (s.setLinkRx rx).portA = s.portA := rfl
@[simp] theorem portB_setLinkRx (rx : LinkRx) : (s.setLinkRx rx).portB = s.portB := rfl
@[simp] theorem bus_setLinkRx (rx : LinkRx) : (s.setLinkRx rx).bus = s.bus := rfl
@[simp] theorem link_setLinkRx (rx : LinkRx) : (s.setLinkRx rx).link = { s.link with rx := rx } := rfl

/-! ### setIssued -/

@[simp] theorem pending_setIssued (c : Channel) (p : Option Nat) : (s.setIssued c p).pending = s.pending := rfl
@[simp] theorem clock_setIssued (c : Channel) (p : Option Nat) : (s.setIssued c p).clock = s.clock := rfl
@[simp] theorem written_setIssued (c : Channel) (p : Option Nat) : (s.setIssued c p).written = s.written := rfl
@[simp] theorem taken_setIssued (c : Channel) (p : Option Nat) : (s.setIssued c p).taken = s.taken := rfl
@[simp] theorem zones_setIssued (c : Channel) (p : Option Nat) : (s.setIssued c p).zones = s.zones := rfl
@[simp] theorem store_setIssued (c : Channel) (p : Option Nat) : (s.setIssued c p).store = s.store := rfl
@[simp] theorem arbiter_setIssued (c : Channel) (p : Option Nat) : (s.setIssued c p).arbiter = s.arbiter := rfl
@[simp] theorem contacts_setIssued (c : Channel) (p : Option Nat) : (s.setIssued c p).contacts = s.contacts := rfl
@[simp] theorem bus_setIssued (c : Channel) (p : Option Nat) : (s.setIssued c p).bus = s.bus := rfl
@[simp] theorem report_setIssued (c : Channel) (p : Option Nat) : (s.setIssued c p).report = s.report := rfl
@[simp] theorem valves_setIssued (c : Channel) (p : Option Nat) : (s.setIssued c p).valves = s.valves := rfl
@[simp] theorem firing_setIssued (c : Channel) (p : Option Nat) : (s.setIssued c p).firing = s.firing := rfl
@[simp] theorem link_setIssued (c : Channel) (p : Option Nat) : (s.setIssued c p).link = s.link := rfl
@[simp] theorem portA_setIssued (c : Channel) (p : Option Nat) : (s.setIssued c p).portA = s.portA := rfl
@[simp] theorem portB_setIssued (c : Channel) (p : Option Nat) : (s.setIssued c p).portB = s.portB := rfl
@[simp] theorem demand_setIssued (c : Channel) (p : Option Nat) :
    (s.setIssued c p).demand = { s.demand with lastIssued := s.demand.lastIssued.set c p } := rfl

/-! ### setList -/

@[simp] theorem pending_setList (l : List Channel) : (s.setList l).pending = s.pending := rfl
@[simp] theorem clock_setList (l : List Channel) : (s.setList l).clock = s.clock := rfl
@[simp] theorem written_setList (l : List Channel) : (s.setList l).written = s.written := rfl
@[simp] theorem taken_setList (l : List Channel) : (s.setList l).taken = s.taken := rfl
@[simp] theorem zones_setList (l : List Channel) : (s.setList l).zones = s.zones := rfl
@[simp] theorem store_setList (l : List Channel) : (s.setList l).store = s.store := rfl
@[simp] theorem arbiter_setList (l : List Channel) : (s.setList l).arbiter = s.arbiter := rfl
@[simp] theorem demand_setList (l : List Channel) : (s.setList l).demand = s.demand := rfl
@[simp] theorem contacts_setList (l : List Channel) : (s.setList l).contacts = s.contacts := rfl
@[simp] theorem bus_setList (l : List Channel) : (s.setList l).bus = s.bus := rfl
@[simp] theorem report_setList (l : List Channel) : (s.setList l).report = s.report := rfl
@[simp] theorem firing_setList (l : List Channel) : (s.setList l).firing = s.firing := rfl
@[simp] theorem link_setList (l : List Channel) : (s.setList l).link = s.link := rfl
@[simp] theorem portA_setList (l : List Channel) : (s.setList l).portA = s.portA := rfl
@[simp] theorem portB_setList (l : List Channel) : (s.setList l).portB = s.portB := rfl
@[simp] theorem valves_setList (l : List Channel) : (s.setList l).valves = { s.valves with waiting := l } := rfl

/-! ### setSlot -/

@[simp] theorem pending_setSlot (i : Slot) (c : Option Channel) : (s.setSlot i c).pending = s.pending := rfl
@[simp] theorem clock_setSlot (i : Slot) (c : Option Channel) : (s.setSlot i c).clock = s.clock := rfl
@[simp] theorem written_setSlot (i : Slot) (c : Option Channel) : (s.setSlot i c).written = s.written := rfl
@[simp] theorem taken_setSlot (i : Slot) (c : Option Channel) : (s.setSlot i c).taken = s.taken := rfl
@[simp] theorem zones_setSlot (i : Slot) (c : Option Channel) : (s.setSlot i c).zones = s.zones := rfl
@[simp] theorem store_setSlot (i : Slot) (c : Option Channel) : (s.setSlot i c).store = s.store := rfl
@[simp] theorem arbiter_setSlot (i : Slot) (c : Option Channel) : (s.setSlot i c).arbiter = s.arbiter := rfl
@[simp] theorem demand_setSlot (i : Slot) (c : Option Channel) : (s.setSlot i c).demand = s.demand := rfl
@[simp] theorem contacts_setSlot (i : Slot) (c : Option Channel) : (s.setSlot i c).contacts = s.contacts := rfl
@[simp] theorem bus_setSlot (i : Slot) (c : Option Channel) : (s.setSlot i c).bus = s.bus := rfl
@[simp] theorem report_setSlot (i : Slot) (c : Option Channel) : (s.setSlot i c).report = s.report := rfl
@[simp] theorem firing_setSlot (i : Slot) (c : Option Channel) : (s.setSlot i c).firing = s.firing := rfl
@[simp] theorem link_setSlot (i : Slot) (c : Option Channel) : (s.setSlot i c).link = s.link := rfl
@[simp] theorem portA_setSlot (i : Slot) (c : Option Channel) : (s.setSlot i c).portA = s.portA := rfl
@[simp] theorem portB_setSlot (i : Slot) (c : Option Channel) : (s.setSlot i c).portB = s.portB := rfl
@[simp] theorem valves_setSlot (i : Slot) (c : Option Channel) :
    (s.setSlot i c).valves = { s.valves with slots := s.valves.slots.set i c } := rfl

/-! ### setHeatList -/

@[simp] theorem pending_setHeatList (l : List Zone) : (s.setHeatList l).pending = s.pending := rfl
@[simp] theorem clock_setHeatList (l : List Zone) : (s.setHeatList l).clock = s.clock := rfl
@[simp] theorem written_setHeatList (l : List Zone) : (s.setHeatList l).written = s.written := rfl
@[simp] theorem taken_setHeatList (l : List Zone) : (s.setHeatList l).taken = s.taken := rfl
@[simp] theorem zones_setHeatList (l : List Zone) : (s.setHeatList l).zones = s.zones := rfl
@[simp] theorem store_setHeatList (l : List Zone) : (s.setHeatList l).store = s.store := rfl
@[simp] theorem arbiter_setHeatList (l : List Zone) : (s.setHeatList l).arbiter = s.arbiter := rfl
@[simp] theorem contacts_setHeatList (l : List Zone) : (s.setHeatList l).contacts = s.contacts := rfl
@[simp] theorem bus_setHeatList (l : List Zone) : (s.setHeatList l).bus = s.bus := rfl
@[simp] theorem report_setHeatList (l : List Zone) : (s.setHeatList l).report = s.report := rfl
@[simp] theorem valves_setHeatList (l : List Zone) : (s.setHeatList l).valves = s.valves := rfl
@[simp] theorem firing_setHeatList (l : List Zone) : (s.setHeatList l).firing = s.firing := rfl
@[simp] theorem link_setHeatList (l : List Zone) : (s.setHeatList l).link = s.link := rfl
@[simp] theorem portA_setHeatList (l : List Zone) : (s.setHeatList l).portA = s.portA := rfl
@[simp] theorem portB_setHeatList (l : List Zone) : (s.setHeatList l).portB = s.portB := rfl
@[simp] theorem demand_setHeatList (l : List Zone) :
    (s.setHeatList l).demand = { s.demand with heatList := l } := rfl

/-! ### setPoints -/

@[simp] theorem pending_setPoints (z : Zone) (l : List Point) : (s.setPoints z l).pending = s.pending := rfl
@[simp] theorem clock_setPoints (z : Zone) (l : List Point) : (s.setPoints z l).clock = s.clock := rfl
@[simp] theorem written_setPoints (z : Zone) (l : List Point) : (s.setPoints z l).written = s.written := rfl
@[simp] theorem taken_setPoints (z : Zone) (l : List Point) : (s.setPoints z l).taken = s.taken := rfl
@[simp] theorem zones_setPoints (z : Zone) (l : List Point) : (s.setPoints z l).zones = s.zones := rfl
@[simp] theorem arbiter_setPoints (z : Zone) (l : List Point) : (s.setPoints z l).arbiter = s.arbiter := rfl
@[simp] theorem demand_setPoints (z : Zone) (l : List Point) : (s.setPoints z l).demand = s.demand := rfl
@[simp] theorem contacts_setPoints (z : Zone) (l : List Point) : (s.setPoints z l).contacts = s.contacts := rfl
@[simp] theorem bus_setPoints (z : Zone) (l : List Point) : (s.setPoints z l).bus = s.bus := rfl
@[simp] theorem report_setPoints (z : Zone) (l : List Point) : (s.setPoints z l).report = s.report := rfl
@[simp] theorem valves_setPoints (z : Zone) (l : List Point) : (s.setPoints z l).valves = s.valves := rfl
@[simp] theorem firing_setPoints (z : Zone) (l : List Point) : (s.setPoints z l).firing = s.firing := rfl
@[simp] theorem link_setPoints (z : Zone) (l : List Point) : (s.setPoints z l).link = s.link := rfl
@[simp] theorem portA_setPoints (z : Zone) (l : List Point) : (s.setPoints z l).portA = s.portA := rfl
@[simp] theorem portB_setPoints (z : Zone) (l : List Point) : (s.setPoints z l).portB = s.portB := rfl
@[simp] theorem lists_setPoints (z : Zone) (l : List Point) :
    (s.setPoints z l).store.lists = s.store.lists.set z l := rfl
@[simp] theorem free_setPoints (z : Zone) (l : List Point) :
    (s.setPoints z l).store.free = s.store.free + s.store.lists[z].length - l.length := rfl
@[simp] theorem stacks_setPoints (z : Zone) (l : List Point) :
    (s.setPoints z l).store.overrides = s.store.overrides := rfl
@[simp] theorem revisions_setPoints (z : Zone) (l : List Point) :
    (s.setPoints z l).store.revisions = s.store.revisions := rfl
@[simp] theorem current_setPoints (z : Zone) (l : List Point) :
    (s.setPoints z l).store.current = s.store.current := rfl
@[simp] theorem claims_setPoints (z : Zone) (l : List Point) :
    (s.setPoints z l).store.claims = s.store.claims := rfl

/-! ### modInput -/

@[simp] theorem pending_modInput (i : Zone) (f : InputWork → InputWork) : (s.modInput i f).pending = s.pending := rfl
@[simp] theorem clock_modInput (i : Zone) (f : InputWork → InputWork) : (s.modInput i f).clock = s.clock := rfl
@[simp] theorem written_modInput (i : Zone) (f : InputWork → InputWork) : (s.modInput i f).written = s.written := rfl
@[simp] theorem taken_modInput (i : Zone) (f : InputWork → InputWork) : (s.modInput i f).taken = s.taken := rfl
@[simp] theorem zones_modInput (i : Zone) (f : InputWork → InputWork) : (s.modInput i f).zones = s.zones := rfl
@[simp] theorem store_modInput (i : Zone) (f : InputWork → InputWork) : (s.modInput i f).store = s.store := rfl
@[simp] theorem arbiter_modInput (i : Zone) (f : InputWork → InputWork) : (s.modInput i f).arbiter = s.arbiter := rfl
@[simp] theorem demand_modInput (i : Zone) (f : InputWork → InputWork) : (s.modInput i f).demand = s.demand := rfl
@[simp] theorem bus_modInput (i : Zone) (f : InputWork → InputWork) : (s.modInput i f).bus = s.bus := rfl
@[simp] theorem report_modInput (i : Zone) (f : InputWork → InputWork) : (s.modInput i f).report = s.report := rfl
@[simp] theorem valves_modInput (i : Zone) (f : InputWork → InputWork) : (s.modInput i f).valves = s.valves := rfl
@[simp] theorem firing_modInput (i : Zone) (f : InputWork → InputWork) : (s.modInput i f).firing = s.firing := rfl
@[simp] theorem link_modInput (i : Zone) (f : InputWork → InputWork) : (s.modInput i f).link = s.link := rfl
@[simp] theorem portA_modInput (i : Zone) (f : InputWork → InputWork) : (s.modInput i f).portA = s.portA := rfl
@[simp] theorem portB_modInput (i : Zone) (f : InputWork → InputWork) : (s.modInput i f).portB = s.portB := rfl
@[simp] theorem inputs_modInput (i : Zone) (f : InputWork → InputWork) :
    (s.modInput i f).contacts.inputs = s.contacts.inputs.set i (f s.contacts.inputs[i]) := rfl
@[simp] theorem samples_modInput (i : Zone) (f : InputWork → InputWork) :
    (s.modInput i f).contacts.samples = s.contacts.samples := rfl
@[simp] theorem pendingOrders_modInput (i : Zone) (f : InputWork → InputWork) :
    (s.modInput i f).contacts.pendingOrders = s.contacts.pendingOrders := rfl

/-! ### setOrders -/

@[simp] theorem pending_setOrders (l : List WindowOrder) : (s.setOrders l).pending = s.pending := rfl
@[simp] theorem clock_setOrders (l : List WindowOrder) : (s.setOrders l).clock = s.clock := rfl
@[simp] theorem written_setOrders (l : List WindowOrder) : (s.setOrders l).written = s.written := rfl
@[simp] theorem taken_setOrders (l : List WindowOrder) : (s.setOrders l).taken = s.taken := rfl
@[simp] theorem zones_setOrders (l : List WindowOrder) : (s.setOrders l).zones = s.zones := rfl
@[simp] theorem store_setOrders (l : List WindowOrder) : (s.setOrders l).store = s.store := rfl
@[simp] theorem arbiter_setOrders (l : List WindowOrder) : (s.setOrders l).arbiter = s.arbiter := rfl
@[simp] theorem demand_setOrders (l : List WindowOrder) : (s.setOrders l).demand = s.demand := rfl
@[simp] theorem bus_setOrders (l : List WindowOrder) : (s.setOrders l).bus = s.bus := rfl
@[simp] theorem report_setOrders (l : List WindowOrder) : (s.setOrders l).report = s.report := rfl
@[simp] theorem valves_setOrders (l : List WindowOrder) : (s.setOrders l).valves = s.valves := rfl
@[simp] theorem firing_setOrders (l : List WindowOrder) : (s.setOrders l).firing = s.firing := rfl
@[simp] theorem link_setOrders (l : List WindowOrder) : (s.setOrders l).link = s.link := rfl
@[simp] theorem portA_setOrders (l : List WindowOrder) : (s.setOrders l).portA = s.portA := rfl
@[simp] theorem portB_setOrders (l : List WindowOrder) : (s.setOrders l).portB = s.portB := rfl
@[simp] theorem contacts_setOrders (l : List WindowOrder) :
    (s.setOrders l).contacts = { s.contacts with pendingOrders := l } := rfl

/-! ### modPort -/

@[simp] theorem pending_modPort (p : Port) (f : PortState → PortState) : (s.modPort p f).pending = s.pending := by cases p <;> rfl
@[simp] theorem clock_modPort (p : Port) (f : PortState → PortState) : (s.modPort p f).clock = s.clock := by cases p <;> rfl
@[simp] theorem written_modPort (p : Port) (f : PortState → PortState) : (s.modPort p f).written = s.written := by cases p <;> rfl
@[simp] theorem taken_modPort (p : Port) (f : PortState → PortState) : (s.modPort p f).taken = s.taken := by cases p <;> rfl
@[simp] theorem zones_modPort (p : Port) (f : PortState → PortState) : (s.modPort p f).zones = s.zones := by cases p <;> rfl
@[simp] theorem store_modPort (p : Port) (f : PortState → PortState) : (s.modPort p f).store = s.store := by cases p <;> rfl
@[simp] theorem arbiter_modPort (p : Port) (f : PortState → PortState) : (s.modPort p f).arbiter = s.arbiter := by cases p <;> rfl
@[simp] theorem demand_modPort (p : Port) (f : PortState → PortState) : (s.modPort p f).demand = s.demand := by cases p <;> rfl
@[simp] theorem contacts_modPort (p : Port) (f : PortState → PortState) : (s.modPort p f).contacts = s.contacts := by cases p <;> rfl
@[simp] theorem bus_modPort (p : Port) (f : PortState → PortState) : (s.modPort p f).bus = s.bus := by cases p <;> rfl
@[simp] theorem report_modPort (p : Port) (f : PortState → PortState) : (s.modPort p f).report = s.report := by cases p <;> rfl
@[simp] theorem valves_modPort (p : Port) (f : PortState → PortState) : (s.modPort p f).valves = s.valves := by cases p <;> rfl
@[simp] theorem firing_modPort (p : Port) (f : PortState → PortState) : (s.modPort p f).firing = s.firing := by cases p <;> rfl
@[simp] theorem link_modPort (p : Port) (f : PortState → PortState) : (s.modPort p f).link = s.link := by cases p <;> rfl

@[simp] theorem port_modPort (p : Port) (f : PortState → PortState) :
    (s.modPort p f).port p = (f (s.port p)).judged := by cases p <;> rfl

@[simp] theorem port_modPort_other (p : Port) (f : PortState → PortState) :
    (s.modPort p f).port p.other = s.port p.other := by cases p <;> rfl

@[simp] theorem port_other_modPort_other (p : Port) (f : PortState → PortState) :
    (s.modPort p.other f).port p = s.port p := by cases p <;> rfl

@[simp] theorem portA_modPort_A (f : PortState → PortState) : (s.modPort .A f).portA = (f s.portA).judged := rfl

@[simp] theorem portB_modPort_A (f : PortState → PortState) : (s.modPort .A f).portB = s.portB := rfl

@[simp] theorem portB_modPort_B (f : PortState → PortState) : (s.modPort .B f).portB = (f s.portB).judged := rfl

@[simp] theorem portA_modPort_B (f : PortState → PortState) : (s.modPort .B f).portA = s.portA := rfl

/-! ### runTo -/

@[simp] theorem pending_runTo (t : Nat) : (runTo t s).pending = s.pending := by unfold runTo; split <;> rfl
@[simp] theorem written_runTo (t : Nat) : (runTo t s).written = s.written := by unfold runTo; split <;> rfl
@[simp] theorem taken_runTo (t : Nat) : (runTo t s).taken = s.taken := by unfold runTo; split <;> rfl
@[simp] theorem zones_runTo (t : Nat) : (runTo t s).zones = s.zones := by unfold runTo; split <;> rfl
@[simp] theorem store_runTo (t : Nat) : (runTo t s).store = s.store := by unfold runTo; split <;> rfl
@[simp] theorem arbiter_runTo (t : Nat) : (runTo t s).arbiter = s.arbiter := by unfold runTo; split <;> rfl
@[simp] theorem demand_runTo (t : Nat) : (runTo t s).demand = s.demand := by unfold runTo; split <;> rfl
@[simp] theorem contacts_runTo (t : Nat) : (runTo t s).contacts = s.contacts := by unfold runTo; split <;> rfl
@[simp] theorem report_runTo (t : Nat) : (runTo t s).report = s.report := by unfold runTo; split <;> rfl
@[simp] theorem valves_runTo (t : Nat) : (runTo t s).valves = s.valves := by unfold runTo; split <;> rfl
@[simp] theorem firing_runTo (t : Nat) : (runTo t s).firing = s.firing := by unfold runTo; split <;> rfl
@[simp] theorem link_runTo (t : Nat) : (runTo t s).link = s.link := by unfold runTo; split <;> rfl
@[simp] theorem portA_runTo (t : Nat) : (runTo t s).portA = s.portA := by unfold runTo; split <;> rfl
@[simp] theorem portB_runTo (t : Nat) : (runTo t s).portB = s.portB := by unfold runTo; split <;> rfl

/-! ### refreshReady, enterGap, newHead -/

@[simp] theorem pending_refreshReady : (refreshReady s).pending = s.pending := rfl
@[simp] theorem pending_enterGap : (enterGap s).pending = s.pending := rfl
@[simp] theorem pending_newHead : (newHead s).pending = s.pending := rfl
@[simp] theorem clock_refreshReady : (refreshReady s).clock = s.clock := rfl
@[simp] theorem clock_enterGap : (enterGap s).clock = s.clock := rfl
@[simp] theorem clock_newHead : (newHead s).clock = s.clock := rfl
@[simp] theorem written_refreshReady : (refreshReady s).written = s.written := rfl
@[simp] theorem written_enterGap : (enterGap s).written = s.written := rfl
@[simp] theorem written_newHead : (newHead s).written = s.written := rfl
@[simp] theorem taken_refreshReady : (refreshReady s).taken = s.taken := rfl
@[simp] theorem taken_enterGap : (enterGap s).taken = s.taken := rfl
@[simp] theorem taken_newHead : (newHead s).taken = s.taken := rfl
@[simp] theorem zones_refreshReady : (refreshReady s).zones = s.zones := rfl
@[simp] theorem zones_enterGap : (enterGap s).zones = s.zones := rfl
@[simp] theorem zones_newHead : (newHead s).zones = s.zones := rfl
@[simp] theorem store_refreshReady : (refreshReady s).store = s.store := rfl
@[simp] theorem store_enterGap : (enterGap s).store = s.store := rfl
@[simp] theorem store_newHead : (newHead s).store = s.store := rfl
@[simp] theorem arbiter_refreshReady : (refreshReady s).arbiter = s.arbiter := rfl
@[simp] theorem arbiter_enterGap : (enterGap s).arbiter = s.arbiter := rfl
@[simp] theorem arbiter_newHead : (newHead s).arbiter = s.arbiter := rfl
@[simp] theorem demand_refreshReady : (refreshReady s).demand = s.demand := rfl
@[simp] theorem demand_enterGap : (enterGap s).demand = s.demand := rfl
@[simp] theorem demand_newHead : (newHead s).demand = s.demand := rfl
@[simp] theorem contacts_refreshReady : (refreshReady s).contacts = s.contacts := rfl
@[simp] theorem contacts_enterGap : (enterGap s).contacts = s.contacts := rfl
@[simp] theorem contacts_newHead : (newHead s).contacts = s.contacts := rfl
@[simp] theorem report_refreshReady : (refreshReady s).report = s.report := rfl
@[simp] theorem report_enterGap : (enterGap s).report = s.report := rfl
@[simp] theorem report_newHead : (newHead s).report = s.report := rfl
@[simp] theorem valves_refreshReady : (refreshReady s).valves = s.valves := rfl
@[simp] theorem valves_enterGap : (enterGap s).valves = s.valves := rfl
@[simp] theorem valves_newHead : (newHead s).valves = s.valves := rfl
@[simp] theorem firing_refreshReady : (refreshReady s).firing = s.firing := rfl
@[simp] theorem firing_enterGap : (enterGap s).firing = s.firing := rfl
@[simp] theorem firing_newHead : (newHead s).firing = s.firing := rfl
@[simp] theorem link_refreshReady : (refreshReady s).link = s.link := rfl
@[simp] theorem link_enterGap : (enterGap s).link = s.link := rfl
@[simp] theorem link_newHead : (newHead s).link = s.link := rfl
@[simp] theorem portA_refreshReady : (refreshReady s).portA = s.portA := rfl
@[simp] theorem portA_enterGap : (enterGap s).portA = s.portA := rfl
@[simp] theorem portA_newHead : (newHead s).portA = s.portA := rfl
@[simp] theorem portB_refreshReady : (refreshReady s).portB = s.portB := rfl
@[simp] theorem portB_enterGap : (enterGap s).portB = s.portB := rfl
@[simp] theorem portB_newHead : (newHead s).portB = s.portB := rfl

/-! ### endAttempt -/

@[simp] theorem pending_endAttempt (c : Source) : (endAttempt c s).pending = s.pending := rfl
@[simp] theorem clock_endAttempt (c : Source) : (endAttempt c s).clock = s.clock := rfl
@[simp] theorem written_endAttempt (c : Source) : (endAttempt c s).written = s.written := rfl
@[simp] theorem taken_endAttempt (c : Source) : (endAttempt c s).taken = s.taken := rfl
@[simp] theorem zones_endAttempt (c : Source) : (endAttempt c s).zones = s.zones := rfl
@[simp] theorem store_endAttempt (c : Source) : (endAttempt c s).store = s.store := rfl
@[simp] theorem arbiter_endAttempt (c : Source) : (endAttempt c s).arbiter = s.arbiter := rfl
@[simp] theorem demand_endAttempt (c : Source) : (endAttempt c s).demand = s.demand := rfl
@[simp] theorem contacts_endAttempt (c : Source) : (endAttempt c s).contacts = s.contacts := rfl
@[simp] theorem report_endAttempt (c : Source) : (endAttempt c s).report = s.report := rfl
@[simp] theorem valves_endAttempt (c : Source) : (endAttempt c s).valves = s.valves := rfl
@[simp] theorem firing_endAttempt (c : Source) : (endAttempt c s).firing = s.firing := rfl
@[simp] theorem link_endAttempt (c : Source) : (endAttempt c s).link = s.link := rfl
@[simp] theorem portA_endAttempt (c : Source) : (endAttempt c s).portA = s.portA := rfl
@[simp] theorem portB_endAttempt (c : Source) : (endAttempt c s).portB = s.portB := rfl

end Sys2Proof.Machine
end

