-- ==== Sys2Proof/Laws/Within.lean ====
section
/-! SUPPORT. What an operation can do, said once: the parts of the state it may change, and that it keeps every
invariant of Safety. Each shared operation has one lemma of this form, here for the updates of the state and in
the files beside this one for the operations of each block; they compose by Within.after. -/

namespace Sys2Proof.Machine

set_option Elab.async false

/-- The parts of the state an operation may change. `targets` are the zone fields of resolution and SET_ZONE,
`calls` the call states with the heat call list, `frost` the emergencies; every other zone field goes with
`zones`. -/
structure Foot where
  clock : Bool := false
  written : Bool := false
  taken : Bool := false
  zones : Bool := false
  targets : Bool := false
  calls : Bool := false
  frost : Bool := false
  store : Bool := false
  arbiter : Bool := false
  demand : Bool := false
  contacts : Bool := false
  bus : Bool := false
  report : Bool := false
  valves : Bool := false
  firing : Bool := false
  link : Bool := false
  ports : Bool := false
deriving DecidableEq, Repr

/-- One footprint lies in another. -/
def Foot.le (a b : Foot) : Bool :=
  (!a.clock || b.clock) && (!a.written || b.written) && (!a.taken || b.taken) && (!a.zones || b.zones) &&
    (!a.targets || b.targets) && (!a.calls || b.calls) && (!a.frost || b.frost) &&
    (!a.store || b.store) && (!a.arbiter || b.arbiter) &&
    (!a.demand || b.demand) && (!a.contacts || b.contacts) && (!a.bus || b.bus) && (!a.report || b.report) &&
    (!a.valves || b.valves) && (!a.firing || b.firing) && (!a.link || b.link) && (!a.ports || b.ports)

/-- The fields of a zone that resolution and SET_ZONE write. -/
def ZoneRecord.target (r : ZoneRecord) : ServiceMode × Int × Int × BaseSource × Int × Basis :=
  (r.serviceMode, r.defaultTarget, r.baseTarget, r.baseSource, r.resolvedTarget, r.resolvedBasis)

/-- The state goes from s to t by operations that change nothing outside the footprint and keep the
invariants. -/
structure Within (F : Foot) (s t : State) : Prop where
  pending : t.pending = s.pending
  clock : F.clock = false → t.clock = s.clock
  written : F.written = false → t.written = s.written
  taken : F.taken = false → t.taken = s.taken
  zones : F.zones = false → t.zones = s.zones
  targets : F.targets = false → ∀ z : Zone, t.zones[z].target = s.zones[z].target
  callStates : F.calls = false → ∀ z : Zone, t.zones[z].callState = s.zones[z].callState
  frosts : F.frost = false → ∀ z : Zone, t.zones[z].frostEmergency = s.zones[z].frostEmergency
  heatList : F.calls = false → t.demand.heatList = s.demand.heatList
  store : F.store = false → t.store = s.store
  arbiter : F.arbiter = false → t.arbiter = s.arbiter
  demand : F.demand = false → t.demand = s.demand
  contacts : F.contacts = false → t.contacts = s.contacts
  bus : F.bus = false → t.bus = s.bus
  report : F.report = false → t.report = s.report
  valves : F.valves = false → t.valves = s.valves
  firing : F.firing = false → t.firing = s.firing
  link : F.link = false → t.link = s.link
  portA : F.ports = false → t.portA = s.portA
  portB : F.ports = false → t.portB = s.portB
  keepsPorts : s.portsSound → t.portsSound
  keepsPool : s.poolSound → t.poolSound
  keepsStacks : s.stacksSound → t.stacksSound
  keepsTargets : s.targetsSound → t.targetsSound
  keepsCalls : s.callsSound → t.callsSound
  keepsBus : s.busSound → t.busSound

variable {F G : Foot} {s t u : State}

theorem Within.refl : Within F s s := by
  constructor <;> intros <;> first | rfl | assumption

theorem Within.trans (h : Within F s t) (k : Within F t u) : Within F s u where
  pending := k.pending.trans h.pending
  clock e := (k.clock e).trans (h.clock e)
  written e := (k.written e).trans (h.written e)
  taken e := (k.taken e).trans (h.taken e)
  zones e := (k.zones e).trans (h.zones e)
  targets e z := (k.targets e z).trans (h.targets e z)
  callStates e z := (k.callStates e z).trans (h.callStates e z)
  frosts e z := (k.frosts e z).trans (h.frosts e z)
  heatList e := (k.heatList e).trans (h.heatList e)
  store e := (k.store e).trans (h.store e)
  arbiter e := (k.arbiter e).trans (h.arbiter e)
  demand e := (k.demand e).trans (h.demand e)
  contacts e := (k.contacts e).trans (h.contacts e)
  bus e := (k.bus e).trans (h.bus e)
  report e := (k.report e).trans (h.report e)
  valves e := (k.valves e).trans (h.valves e)
  firing e := (k.firing e).trans (h.firing e)
  link e := (k.link e).trans (h.link e)
  portA e := (k.portA e).trans (h.portA e)
  portB e := (k.portB e).trans (h.portB e)
  keepsPorts e := k.keepsPorts (h.keepsPorts e)
  keepsPool e := k.keepsPool (h.keepsPool e)
  keepsStacks e := k.keepsStacks (h.keepsStacks e)
  keepsTargets e := k.keepsTargets (h.keepsTargets e)
  keepsCalls e := k.keepsCalls (h.keepsCalls e)
  keepsBus e := k.keepsBus (h.keepsBus e)

theorem Within.mono (h : Within F s t) (hle : F.le G = true := by rfl) : Within G s t := by
  simp only [Foot.le, Bool.and_eq_true, Bool.or_eq_true, Bool.not_eq_true'] at hle
  obtain ⟨⟨⟨⟨⟨⟨⟨⟨⟨⟨⟨⟨⟨⟨⟨⟨h1, h2⟩, h3⟩, h4⟩, h5⟩, h6⟩, h6'⟩, h7⟩, h8⟩, h9⟩, h10⟩, h11⟩, h12⟩, h13⟩, h14⟩, h15⟩, h16⟩ := hle
  have low : ∀ {a b : Bool}, a = false ∨ b = true → b = false → a = false := by
    intro a b h e
    cases h with
    | inl h => exact h
    | inr h => rw [e] at h; cases h
  exact {
    pending := h.pending
    clock := fun e => h.clock (low h1 e)
    written := fun e => h.written (low h2 e)
    taken := fun e => h.taken (low h3 e)
    zones := fun e => h.zones (low h4 e)
    targets := fun e => h.targets (low h5 e)
    callStates := fun e => h.callStates (low h6 e)
    frosts := fun e => h.frosts (low h6' e)
    heatList := fun e => h.heatList (low h6 e)
    store := fun e => h.store (low h7 e)
    arbiter := fun e => h.arbiter (low h8 e)
    demand := fun e => h.demand (low h9 e)
    contacts := fun e => h.contacts (low h10 e)
    bus := fun e => h.bus (low h11 e)
    report := fun e => h.report (low h12 e)
    valves := fun e => h.valves (low h13 e)
    firing := fun e => h.firing (low h14 e)
    link := fun e => h.link (low h15 e)
    portA := fun e => h.portA (low h16 e)
    portB := fun e => h.portB (low h16 e)
    keepsPorts := h.keepsPorts
    keepsPool := h.keepsPool
    keepsStacks := h.keepsStacks
    keepsTargets := h.keepsTargets
    keepsCalls := h.keepsCalls
    keepsBus := h.keepsBus }

/-- One operation more, its footprint lying in that of the whole. The outer operation comes first, as in the
term it is stated of. -/
theorem Within.after (k : Within G t u) (h : Within F s t) (hle : G.le F = true := by rfl) : Within F s u :=
  h.trans (k.mono hle)

/-- An operation carried out for each member of a list. -/
theorem forEach_within {α : Type} {l : List α} {f : α → State → State} (h : ∀ x s, Within F s (f x s)) :
    Within F s (forEach l f s) := by
  unfold forEach
  induction l generalizing s with
  | nil => exact .refl
  | cons x l ih => exact (h x s).trans ih

/-! ### The updates of the state -/

theorem portsSound_of_eq (ha : t.portA = s.portA) (hb : t.portB = s.portB) (h : s.portsSound) : t.portsSound := by
  unfold State.portsSound; rw [ha, hb]; exact h

theorem poolSound_of_eq (hs : t.store = s.store) (h : s.poolSound) : t.poolSound := by
  unfold State.poolSound; rw [hs]; exact h

theorem stacksSound_of_eq (hs : t.store.overrides = s.store.overrides) (h : s.stacksSound) : t.stacksSound := by
  unfold State.stacksSound; rw [hs]; exact h

theorem targetsSound_of_eq (hw : t.written = s.written)
    (hz : ∀ z : Zone, t.zones[z].resolvedTarget = s.zones[z].resolvedTarget) (h : s.targetsSound) : t.targetsSound := by
  unfold State.targetsSound; rw [hw]
  exact ⟨h.1, fun z => by rw [hz]; exact h.2 z⟩

theorem callsSound_of_eq (hd : t.demand.heatList = s.demand.heatList)
    (hz : ∀ z : Zone, t.zones[z].callState = s.zones[z].callState) (h : s.callsSound) : t.callsSound := by
  unfold State.callsSound; rw [hd]
  exact ⟨h.1, fun z => by rw [hz]; exact h.2 z⟩

theorem busSound_of_eq (ho : t.bus.outbound = s.bus.outbound) (hr : t.bus.rx = s.bus.rx)
    (hq : t.report.queue = s.report.queue) (hv : t.report.reserved = s.report.reserved) (h : s.busSound) :
    t.busSound := by
  unfold State.busSound State.receiveCount at *; rw [ho, hr, hq, hv]; exact h

theorem Vector.get_set_zone (v : Vector ZoneRecord 16) (z y : Zone) (r : ZoneRecord) :
    (v.set z r)[y] = if z = y then r else v[y] := by
  simp only [Fin.getElem_fin, Vector.getElem_set, Fin.val_inj]

theorem runTo_within (n : Nat) : Within { clock := true, bus := true } s (runTo n s) := by
  unfold runTo
  split
  · constructor <;> intros <;> first | rfl | assumption | contradiction
  · exact .refl

/-- A write of a port that adds no notice beyond the 32. -/
theorem modPort_within (p : Port) {f : PortState → PortState}
    (hf : ∀ ps, ps.notices.length ≤ Config.noticeMax → (f ps).notices.length ≤ Config.noticeMax) :
    Within { ports := true } s (s.modPort p f) := by
  cases p <;> constructor <;> intros <;> first
    | rfl | assumption | contradiction
    | (rename_i h; exact ⟨⟨hf _ h.1.1, rfl⟩, h.2⟩)
    | (rename_i h; exact ⟨h.1, ⟨hf _ h.2.1, rfl⟩⟩)

/-- A write of a zone record that leaves its target fields and its call state. -/
theorem modZone_within (z : Zone) {f : ZoneRecord → ZoneRecord} (ht : ∀ r, (f r).target = r.target)
    (hc : ∀ r, (f r).callState = r.callState)
    (hf : ∀ r, (f r).frostEmergency = r.frostEmergency := by intro r; rfl) :
    Within { zones := true } s (s.modZone z f) := by
  have hz : ∀ y : Zone, (s.modZone z f).zones[y].target = s.zones[y].target := by
    intro y; rw [zones_modZone, Vector.get_set_zone]; split
    · next e => subst e; exact ht _
    · rfl
  have hy : ∀ y : Zone, (s.modZone z f).zones[y].callState = s.zones[y].callState := by
    intro y; rw [zones_modZone, Vector.get_set_zone]; split
    · next e => subst e; exact hc _
    · rfl
  have hx : ∀ y : Zone, (s.modZone z f).zones[y].frostEmergency = s.zones[y].frostEmergency := by
    intro y; rw [zones_modZone, Vector.get_set_zone]; split
    · next e => subst e; exact hf _
    · rfl
  have kt : s.targetsSound → (s.modZone z f).targetsSound :=
    targetsSound_of_eq (s := s) rfl fun y => congrArg (fun p => p.2.2.2.2.1) (hz y)
  have kc : s.callsSound → (s.modZone z f).callsSound := callsSound_of_eq (s := s) rfl hy
  constructor
  case keepsTargets => exact kt
  case keepsCalls => exact kc
  all_goals (intros; first | rfl | assumption | contradiction | apply hz | apply hy | apply hx)

/-- A write of a zone record that leaves its resolved_target and its call state. -/
theorem modZone_within_targets (z : Zone) {f : ZoneRecord → ZoneRecord}
    (ht : ∀ r, (f r).resolvedTarget = r.resolvedTarget) (hc : ∀ r, (f r).callState = r.callState)
    (hf : ∀ r, (f r).frostEmergency = r.frostEmergency := by intro r; rfl) :
    Within { zones := true, targets := true } s (s.modZone z f) := by
  have hz : ∀ y : Zone, (s.modZone z f).zones[y].resolvedTarget = s.zones[y].resolvedTarget := by
    intro y; rw [zones_modZone, Vector.get_set_zone]; split
    · next e => subst e; exact ht _
    · rfl
  have hy : ∀ y : Zone, (s.modZone z f).zones[y].callState = s.zones[y].callState := by
    intro y; rw [zones_modZone, Vector.get_set_zone]; split
    · next e => subst e; exact hc _
    · rfl
  have hx : ∀ y : Zone, (s.modZone z f).zones[y].frostEmergency = s.zones[y].frostEmergency := by
    intro y; rw [zones_modZone, Vector.get_set_zone]; split
    · next e => subst e; exact hf _
    · rfl
  have kt : s.targetsSound → (s.modZone z f).targetsSound := targetsSound_of_eq (s := s) rfl hz
  have kc : s.callsSound → (s.modZone z f).callsSound := callsSound_of_eq (s := s) rfl hy
  constructor
  case keepsTargets => exact kt
  case keepsCalls => exact kc
  all_goals (intros; first | rfl | assumption | contradiction | apply hy | apply hx)

/-- A write of a zone record's emergency alone. -/
theorem modZone_within_frost (z : Zone) (b : Bool) :
    Within { zones := true, frost := true } s (s.modZone z fun r => { r with frostEmergency := b }) := by
  have hz : ∀ y : Zone, (s.modZone z fun r => { r with frostEmergency := b }).zones[y].target = s.zones[y].target := by
    intro y; rw [zones_modZone, Vector.get_set_zone]; split
    · next e => subst e; rfl
    · rfl
  have hy : ∀ y : Zone, (s.modZone z fun r => { r with frostEmergency := b }).zones[y].callState =
      s.zones[y].callState := by
    intro y; rw [zones_modZone, Vector.get_set_zone]; split
    · next e => subst e; rfl
    · rfl
  have kt : s.targetsSound → (s.modZone z fun r => { r with frostEmergency := b }).targetsSound :=
    targetsSound_of_eq (s := s) rfl fun y => congrArg (fun p => p.2.2.2.2.1) (hz y)
  have kc : s.callsSound → (s.modZone z fun r => { r with frostEmergency := b }).callsSound :=
    callsSound_of_eq (s := s) rfl hy
  constructor
  case keepsTargets => exact kt
  case keepsCalls => exact kc
  all_goals (intros; first | rfl | assumption | contradiction | apply hz | apply hy)

theorem modChannel_within (c : Channel) (f : ChannelRecord → ChannelRecord) :
    Within { valves := true } s (s.modChannel c f) := by
  constructor <;> intros <;> first | rfl | assumption | contradiction

theorem setList_within (l : List Channel) : Within { valves := true } s (s.setList l) := by
  constructor <;> intros <;> first | rfl | assumption | contradiction

theorem setSlot_within (i : Slot) (c : Option Channel) : Within { valves := true } s (s.setSlot i c) := by
  constructor <;> intros <;> first | rfl | assumption | contradiction

theorem modFiring_within (f : Firing → Firing) : Within { firing := true } s (s.modFiring f) := by
  constructor <;> intros <;> first | rfl | assumption | contradiction

theorem modLink_within (f : BurnerLink → BurnerLink) : Within { link := true } s (s.modLink f) := by
  constructor <;> intros <;> first | rfl | assumption | contradiction

theorem setIssued_within (c : Channel) (p : Option Nat) : Within { demand := true } s (s.setIssued c p) := by
  constructor <;> intros <;> first | rfl | assumption | contradiction

/-- A write of the Demand Unit's fields other than the heat call list. -/
theorem demand_within {d : DemandUnit} (h : d.heatList = s.demand.heatList) :
    Within { demand := true } s { s with demand := d } := by
  have kc : s.callsSound → ({ s with demand := d } : State).callsSound :=
    callsSound_of_eq (s := s) h fun _ => rfl
  constructor
  case keepsCalls => exact kc
  all_goals (intros; first | rfl | assumption | contradiction)

theorem contacts_within (k : ContactMonitor) : Within { contacts := true } s { s with contacts := k } := by
  constructor <;> intros <;> first | rfl | assumption | contradiction

theorem arbiter_within (a : Arbiter) : Within { arbiter := true } s { s with arbiter := a } := by
  constructor <;> intros <;> first | rfl | assumption | contradiction

theorem clock_within (c : Clock) : Within { clock := true } s { s with clock := c } := by
  constructor <;> intros <;> first | rfl | assumption | contradiction

theorem taken_within (p : Params) : Within { taken := true } s { s with taken := p } := by
  constructor <;> intros <;> first | rfl | assumption | contradiction

/-- A write of the bus that leaves the outbound queue no longer and the frame on the line as it was. -/
theorem bus_within {b : RoomBus}
    (ho : s.bus.outbound.length ≤ Config.outboundMax → b.outbound.length ≤ Config.outboundMax)
    (hr : b.rx = s.bus.rx ∨ b.rx = none) : Within { bus := true } s { s with bus := b } := by
  constructor <;> intros <;> first
    | rfl | assumption | contradiction
    | (rename_i h
       refine ⟨ho h.1, h.2.1, ?_⟩
       rcases hr with hr | hr
       · intro e; exact h.2.2 (by rw [← hr]; exact e)
       · intro e; rw [hr] at e; cases e)

/-- A write of the Report Processor that takes no slot of the receive queue. -/
theorem report_within {r : ReportProcessor} (hq : r.queue.length ≤ s.report.queue.length)
    (hv : r.reserved = s.report.reserved) : Within { report := true } s { s with report := r } := by
  constructor <;> intros <;> first
    | rfl | assumption | contradiction
    | (rename_i h
       refine ⟨h.1, ?_, ?_⟩
       · have := h.2.1
         unfold State.receiveCount at *
         simp only [hv]
         exact Nat.le_trans (Nat.add_le_add_right hq _) this
       · simp only [hv]; exact h.2.2)

theorem setUnit_within (u : UnitIx) (r : Option UnitRecord) : Within { report := true } s (s.setUnit u r) :=
  report_within (Nat.le_refl _) rfl

/-- A write of the store that leaves its lists, its pool and its stacks. -/
theorem store_within {k : Store} (hf : k.free = s.store.free) (hl : k.lists = s.store.lists)
    (hs : k.overrides = s.store.overrides) : Within { store := true } s { s with store := k } := by
  have kp : s.poolSound → ({ s with store := k } : State).poolSound := by
    intro h
    have hu : k.used = s.store.used := by unfold Store.used; rw [hl]
    refine ⟨?_, fun z => ?_⟩
    · show k.free + k.used = _
      rw [hf, hu]
      exact h.1
    · have hz := h.2 z
      rw [← hl] at hz
      exact hz
  have ks : s.stacksSound → ({ s with store := k } : State).stacksSound := stacksSound_of_eq (s := s) hs
  constructor
  case keepsPool => exact kp
  case keepsStacks => exact ks
  all_goals (intros; first | rfl | assumption | contradiction)

theorem setClaim_within (c : ClaimIx) (h : Option Held) : Within { store := true } s (s.setClaim c h) :=
  store_within rfl rfl rfl

theorem Vector.get_set_stack (v : Vector Stack 16) (z y : Zone) (r : Stack) :
    (v.set z r)[y] = if z = y then r else v[y] := by
  simp only [Fin.getElem_fin, Vector.getElem_set, Fin.val_inj]

/-- A write of a stack that keeps a BOOST and a locked HOLD apart. -/
theorem modStack_within (z : Zone) {f : Stack → Stack} (hf : s.store.overrides[z].sound → (f s.store.overrides[z]).sound) :
    Within { store := true } s (s.modStack z f) := by
  have ks : s.stacksSound → (s.modStack z f).stacksSound := by
    intro h y
    rw [stacks_modStack, Vector.get_set_stack]
    split
    · exact hf (h z)
    · exact h y
  constructor
  case keepsStacks => exact ks
  all_goals (intros; first | rfl | assumption | contradiction)

end Sys2Proof.Machine
end

