-- ==== Sys2Proof/Laws/Ops.lean ====
section
/-! SUPPORT. What the operations of Machine/Ops, BusOps and FiringOps can do. -/

namespace Sys2Proof.Machine

set_option Elab.async false

variable {F : Foot} {s : State}

/-- A conditional operation. -/
theorem Within.ite {c : Prop} [Decidable c] {a b : State} (ha : c → Within F s a) (hb : ¬c → Within F s b) :
    Within F s (if c then a else b) := by
  split
  · exact ha (by assumption)
  · exact hb (by assumption)

/-! ### Notices, replies, the waiting set -/

def portsFoot : Foot := { ports := true }

theorem length_offer (n : Notice) (p : PortState) (h : p.notices.length ≤ Config.noticeMax) :
    (p.offer n).notices.length ≤ Config.noticeMax := by
  unfold PortState.offer
  split
  · split
    · rename_i hlt; simp; omega
    · exact h
  · exact h

theorem notices_recordRefusal (kind : Option Byte) (st : Status) (sub : Option Byte) (now : Nat) (p : PortState) :
    (p.recordRefusal kind st sub now).notices = p.notices := by
  unfold PortState.recordRefusal; split <;> rfl

theorem notices_placeReply (r : Reply) (sub : Option Byte) (now : Nat) (p : PortState) :
    (p.placeReply r sub now).notices = p.notices := by
  unfold PortState.placeReply
  dsimp only
  split
  · rfl
  · rw [notices_recordRefusal]

/-- A write of a port that leaves its notices. -/
theorem modPort_within_notices (p : Port) {f : PortState → PortState} (hf : ∀ ps, (f ps).notices = ps.notices) :
    Within portsFoot s (s.modPort p f) :=
  modPort_within p fun ps h => by rw [hf]; exact h

theorem raiseTo_within {p : Port} {k : NoticeKind} {sub : Subject} {d : List Byte} :
    Within portsFoot s (raiseTo p k sub d s) :=
  modPort_within p fun ps h => length_offer _ ps h

theorem raise_within {k : NoticeKind} {sub : Subject} {d : List Byte} : Within portsFoot s (raise k sub d s) :=
  raiseTo_within.after raiseTo_within

theorem freeze_within {r : StoreReq} : Within { store := true } s (freeze r s) := by
  unfold freeze
  split
  · split
    · exact .ite (fun _ => setClaim_within _ _) fun _ => .refl
    · exact .refl
  · exact .refl

def joinFoot : Foot := { store := true, arbiter := true }

theorem setWaiting_within {q : Requester} {r : Option StoreReq} : Within { arbiter := true } s (s.setWaiting q r) :=
  arbiter_within _

theorem joinWaiting_within {q : Requester} {r : StoreReq} : Within joinFoot s (joinWaiting q r s) :=
  freeze_within.after setWaiting_within.mono

theorem restartClaim_within {p : Port} {c : ClaimIx} : Within { store := true } s (restartClaim p c s) := by
  unfold restartClaim
  split
  · exact .ite (fun _ => setClaim_within _ _) fun _ => .refl
  · exact .refl

def deliverFoot : Foot := { store := true, arbiter := true, ports := true }

theorem deliver_within {p : Port} {st : Status} {body : List Byte} : Within deliverFoot s (deliver p st body s) := by
  unfold deliver
  refine .ite (fun _ => ?_) fun _ => ?_
  · exact joinWaiting_within.after (.mono (modPort_within_notices p fun _ => rfl))
  · exact .mono (modPort_within_notices p fun _ => notices_placeReply _ _ _ _)

theorem giveZoneEvent_within {z : Zone} : Within { demand := true } s (giveZoneEvent z s) := by
  unfold giveZoneEvent
  split
  · apply demand_within; rfl
  · exact .refl

/-! ### The room bus -/

def busFoot : Foot := { bus := true, ports := true }

theorem sendFailed_within {b : OutBody} {cause : Byte} {n : Nat} : Within portsFoot s (sendFailed b cause n s) :=
  raise_within

theorem controlFailed_within {k : ControlKind} {n : Nat} : Within portsFoot s (controlFailed k n s) := raise_within

/-- A write of the bus that leaves the outbound queue and the frame on the line. -/
theorem bus_within_rest {b : RoomBus} (ho : b.outbound = s.bus.outbound) (hr : b.rx = s.bus.rx) :
    Within { bus := true } s { s with bus := b } :=
  bus_within (by rw [ho]; exact id) (.inl hr)

theorem refreshReady_within : Within { bus := true } s (refreshReady s) := bus_within_rest rfl rfl

theorem outbound_order (k : ControlKind) (b : RoomBus) : (b.order k).outbound = b.outbound ∧ (b.order k).rx = b.rx := by
  unfold RoomBus.order
  repeat' split
  all_goals exact ⟨rfl, rfl⟩

theorem orderControl_within {k : ControlKind} : Within { bus := true } s (orderControl k s) :=
  refreshReady_within.after (bus_within_rest (outbound_order k s.bus).1 (outbound_order k s.bus).2)

theorem applyPendingControl_within : Within { bus := true } s (applyPendingControl s) := by
  unfold applyPendingControl
  split
  · refine orderControl_within.after ?_
    apply bus_within_rest <;> rfl
  · exact .refl

theorem setOutbound_within {l : List OutFrame}
    (h : s.bus.outbound.length ≤ Config.outboundMax → l.length ≤ Config.outboundMax) :
    Within { bus := true } s (s.setOutbound l) :=
  bus_within h (.inl rfl)

theorem newHead_within : Within { bus := true } s (newHead s) := bus_within_rest rfl rfl

theorem length_replaceAnnounce {z : Zone} {t : Int} {b : Basis} {l m : List OutFrame}
    (h : replaceAnnounce z t b l = some m) : m.length = l.length := by
  induction l generalizing m with
  | nil => cases h
  | cons f l ih =>
    simp only [replaceAnnounce] at h
    split at h
    · split at h
      · cases h; rfl
      · obtain ⟨x, hx, rfl⟩ := Option.map_eq_some_iff.1 h
        simp [ih hx]
    · obtain ⟨x, hx, rfl⟩ := Option.map_eq_some_iff.1 h
      simp [ih hx]

theorem length_takeAnnounce {l m : List OutFrame} {f : OutFrame} (h : takeAnnounce l = some (f, m)) :
    m.length + 1 = l.length := by
  induction l generalizing m with
  | nil => cases h
  | cons x l ih =>
    simp only [takeAnnounce] at h
    split at h
    · cases h; rfl
    · obtain ⟨y, hy, e⟩ := Option.map_eq_some_iff.1 h
      cases e
      simp [ih hy]

theorem queueAnnounce_within {z : Zone} {t : Int} {b : Basis} : Within busFoot s (queueAnnounce z t b s) := by
  unfold queueAnnounce
  dsimp only
  split
  · rename_i rest h
    refine .mono (setOutbound_within fun hl => ?_)
    have := length_replaceAnnounce h
    rw [List.length_append, this, ← List.length_append, List.take_append_drop]
    exact hl
  · refine .ite (fun hlt => ?_) fun _ => ?_
    · refine refreshReady_within.after (.mono (setOutbound_within fun _ => ?_))
      simp only [List.length_append, List.length_singleton]
      omega
    · split
      · rename_i old rest h
        have hl := length_takeAnnounce h
        refine sendFailed_within.after (refreshReady_within.after ?_)
        refine .ite (fun _ => newHead_within.after (.mono (setOutbound_within fun ho => ?_))) fun _ =>
          .mono (setOutbound_within fun ho => ?_)
        all_goals
          simp only [List.length_append, List.length_take, List.length_drop, List.length_singleton] at hl ⊢
          omega
      · exact sendFailed_within.mono

theorem queueReply_within {b : OutBody} : Within busFoot s (queueReply b s) := by
  unfold queueReply
  refine .ite (fun hlt => ?_) fun _ => sendFailed_within.mono
  refine refreshReady_within.after (.mono (setOutbound_within fun _ => ?_))
  simp only [List.length_append, List.length_singleton]
  omega

theorem failControl_within : Within busFoot s (failControl s) := by
  unfold failControl
  split
  · dsimp only
    split
    · refine controlFailed_within.after (.mono (G := busFoot) (F := { bus := true }) ?_)
      apply bus_within_rest <;> rfl
    · refine .mono (F := { bus := true }) ?_
      apply bus_within_rest <;> rfl
  · exact .refl

theorem failOutbound_within : Within busFoot s (failOutbound s) := by
  unfold failOutbound
  split
  · rename_i f rest h
    dsimp only
    split
    · refine sendFailed_within.after (newHead_within.after (.mono (setOutbound_within fun ho => ?_)))
      rw [h, List.length_cons] at ho
      omega
    · refine .mono (F := { bus := true }) ?_
      apply bus_within
      · intro ho
        rw [h] at ho
        exact ho
      · exact .inl rfl
  · exact .refl

theorem failFrame_within {c : Source} : Within busFoot s (failFrame c s) := by
  unfold failFrame
  cases c
  · exact refreshReady_within.after (applyPendingControl_within.after failControl_within)
  · exact refreshReady_within.after failOutbound_within

theorem endAttempt_within {c : Source} : Within { bus := true } s (endAttempt c s) := bus_within_rest rfl rfl

theorem failAttempt_within {c : Source} : Within busFoot s (failAttempt c s) :=
  failFrame_within.after endAttempt_within.mono

theorem failDeferred_within {c : Source} : Within busFoot s (failDeferred c s) :=
  failFrame_within.after (.mono (F := { bus := true }) (bus_within_rest rfl rfl))

theorem enterGap_within : Within { bus := true } s (enterGap s) := bus_within id (.inr rfl)

def receiveFoot : Foot := { bus := true, report := true }

theorem setHoldOff_within {h : HoldOffState} : Within { report := true } s (s.setHoldOff h) :=
  report_within (Nat.le_refl _) rfl

theorem setAck_within {a : Ack} : Within { bus := true } s (s.setAck a) := bus_within_rest rfl rfl

theorem setLine_within {l : LineState} : Within { bus := true } s (s.setLine l) := bus_within_rest rfl rfl

theorem abandonRecovery_within : Within { bus := true } s (abandonRecovery s) := bus_within_rest rfl rfl

theorem beginSync_within : Within { bus := true } s (beginSync s) := bus_within_rest rfl rfl

theorem judgeHoldOff_within : Within receiveFoot s (judgeHoldOff s) := by
  unfold judgeHoldOff
  split
  · exact .ite (fun _ => orderControl_within.after setHoldOff_within.mono) fun _ => .refl
  · exact .ite (fun _ => orderControl_within.after setHoldOff_within.mono) fun _ => .refl

/-- Slots and the frame on the line written together. -/
theorem slots_within {b : Bool} {rx : Option RxFrame} (hb : b = true → s.receiveCount < Config.receiveMax)
    (hr : (rx.any fun f => f.mode == .reserved) = true → b = true) :
    Within receiveFoot s ((s.setReserved b).setRx rx) := by
  have kb : s.busSound → ((s.setReserved b).setRx rx).busSound := by
    intro h
    refine ⟨h.1, ?_, hr⟩
    have h2 := h.2.1
    show s.report.queue.length + (if b = true then 1 else 0) ≤ _
    cases b
    · unfold State.receiveCount at h2
      simp only [Bool.false_eq_true, if_false]
      omega
    · have h3 := hb rfl
      unfold State.receiveCount at h3
      simp only [if_true]
      omega
  constructor
  case keepsBus => exact kb
  all_goals (intros; first | rfl | assumption | contradiction)

theorem rewind_within : Within receiveFoot s (rewind s) := by
  unfold rewind
  split
  · exact .ite (fun _ => judgeHoldOff_within.after (slots_within (fun e => by cases e) fun e => by cases e))
      fun _ => .refl
  · exact .refl

theorem removeHead_within : Within receiveFoot s (removeHead s) := by
  unfold removeHead
  refine judgeHoldOff_within.after (.mono (F := { report := true }) ?_)
  apply report_within
  · simp
  · rfl

/-! ### The Firing Controller -/

def firingFoot : Foot := { firing := true, ports := true }

theorem changeFiring_within {n : FiringState} {c : Cause} {d : List Byte} :
    Within firingFoot s (changeFiring n c d s) := by
  unfold changeFiring
  refine raise_within.after (.mono (F := { firing := true }) ?_)
  exact .ite (fun _ => (modFiring_within _).after (modFiring_within _)) fun _ => modFiring_within _

theorem testInOff_within : Within firingFoot s (testInOff s) := by
  unfold testInOff
  exact .ite (fun _ => changeFiring_within) fun _ => .refl

theorem enterOff_within {c : Cause} : Within firingFoot s (enterOff c s) := testInOff_within.after changeFiring_within

theorem enterAnticycle_within {c : Cause} : Within firingFoot s (enterAnticycle c s) := by
  unfold enterAnticycle
  exact .ite (fun _ => enterOff_within) fun _ => changeFiring_within

theorem endRunout_within : Within firingFoot s (endRunout s) := by
  unfold endRunout
  dsimp only
  exact .ite (fun _ => enterOff_within.after (.mono (modFiring_within _))) fun _ =>
    changeFiring_within.after (.mono (modFiring_within _))

theorem enterRunout_within {c : Cause} {v w : Vector Bool 16} : Within firingFoot s (enterRunout c v w s) := by
  unfold enterRunout
  dsimp only
  refine .ite (fun _ => ?_) fun _ => ?_
  · exact endRunout_within.after ((modFiring_within _).after changeFiring_within)
  · exact (modFiring_within _).after changeFiring_within

theorem testPermitted_within {v : Vector Bool 16} : Within firingFoot s (testPermitted v s) := by
  unfold testPermitted
  split
  · exact testInOff_within
  · exact .ite (fun _ => .refl) fun _ => enterRunout_within
  · exact .ite (fun _ => .refl) fun _ => enterRunout_within
  · exact .refl

theorem takeFlowReady_within {z : Zone} {b : Bool} : Within firingFoot s (takeFlowReady z b s) :=
  testPermitted_within.after (.mono (modFiring_within _))

theorem callUpdate_within : Within firingFoot s (callUpdate s) :=
  testPermitted_within.after (.mono (modFiring_within _))

theorem frostEvent_within : Within firingFoot s (frostEvent s) := by
  unfold frostEvent
  split
  · exact enterOff_within
  · exact .mono (modFiring_within _)
  · exact .refl

theorem stopRunout_within : Within firingFoot s (stopRunout s) := .mono (modFiring_within _)

theorem enterLockout_within {b : Byte} : Within firingFoot s (enterLockout b s) :=
  changeFiring_within.after ((modFiring_within _).after stopRunout_within)

theorem enterLinkDown_within : Within firingFoot s (enterLinkDown s) :=
  changeFiring_within.after ((modFiring_within _).after stopRunout_within)

theorem judgeMinOff_within : Within firingFoot s (judgeMinOff s) := by
  unfold judgeMinOff
  exact .ite (fun _ => enterOff_within) fun _ => .refl

end Sys2Proof.Machine
end

