-- ==== Sys2Proof/Laws/Valves.lean ====
section
/-! SUPPORT. What the operations of Machine/ValveOps and DemandOps can do. -/

namespace Sys2Proof.Machine

set_option Elab.async false

variable {F : Foot} {s : State}

/-! ### The Valve Drive Unit -/

def valveFoot : Foot := { valves := true, demand := true, zones := true, firing := true, ports := true }

theorem forgetIssued_within {c : Channel} : Within { demand := true } s (forgetIssued c s) := setIssued_within _ _

theorem tellStart_within {c : Channel} {n : Nat} : Within { demand := true } s (tellStart c n s) := by
  unfold tellStart
  exact .ite (fun _ => .refl) fun _ => setIssued_within _ _

theorem writeFlowReady_within {z : Zone} : Within valveFoot s (writeFlowReady z s) := by
  unfold writeFlowReady
  exact .ite (fun _ => .refl) fun _ =>
    takeFlowReady_within.after (.mono (modZone_within z (fun _ => rfl) fun _ => rfl))

theorem judgeOpenOnly_within {c : Channel} : Within { valves := true } s (judgeOpenOnly c s) := modChannel_within _ _

theorem judgeOpen_within {c : Channel} : Within valveFoot s (judgeOpen c s) := by
  unfold judgeOpen
  dsimp only
  split
  · exact writeFlowReady_within.after judgeOpenOnly_within.mono
  · exact judgeOpenOnly_within.mono

theorem writeValveCount_within {z : Zone} : Within { zones := true } s (writeValveCount z s) :=
  modZone_within z (fun _ => rfl) fun _ => rfl

def waitFoot : Foot := { valves := true, ports := true }

theorem joinList_within {c : Channel} {u : Bool} : Within { valves := true } s (joinList c u s) :=
  (setList_within _).after (modChannel_within _ _)

theorem rest_within {c : Channel} : Within { valves := true } s (rest c s) := modChannel_within _ _

theorem raiseMark_within {c : Channel} {p : Port} {tag o : Byte} : Within portsFoot s (raiseMark c p tag o s) :=
  raiseTo_within

theorem takeUpLoop_within {fuel : Nat} {c : Channel} : Within waitFoot s (takeUpLoop fuel c s) := by
  induction fuel generalizing s with
  | zero => exact .refl
  | succ n ih =>
    unfold takeUpLoop
    dsimp only
    split
    · exact .ite (fun _ => ih.after (.mono (modChannel_within _ _))) fun _ => joinList_within.mono
    · split
      · exact rest_within.mono
      · exact ih.after (raiseMark_within.after (.mono (modChannel_within _ _)))
      · exact .mono (modChannel_within _ _)
      · exact .ite (fun _ => ih.after (.mono (modChannel_within _ _))) fun _ => joinList_within.mono
      · exact joinList_within.mono

theorem takeUpOnly_within {c : Channel} : Within waitFoot s (takeUpOnly c s) := takeUpLoop_within

/-- A free slot drives neither of its outputs, and a slot never drives both (R143). -/
theorem drive_free {i : Slot} (free : s.valves.slots[i] = none) : s.driveOpen i = false ∧ s.driveClose i = false := by
  simp [State.driveOpen, State.driveClose, State.slotMovement, free]

theorem drive_one (i : Slot) : (s.driveOpen i && s.driveClose i) = false := by
  unfold State.driveOpen State.driveClose
  cases s.slotMovement i <;> simp

theorem startMovement_within {c : Channel} {i : Slot} {e : Entry} {n : Nat} :
    Within valveFoot s (startMovement c i e n s) := by
  unfold startMovement
  refine judgeOpen_within.after ?_
  exact .ite (fun _ => forgetIssued_within.after (.mono (modChannel_within _ _))) fun _ =>
    tellStart_within.after (.mono (modChannel_within _ _))

theorem grantHead_within {c : Channel} {i : Slot} : Within valveFoot s (grantHead c i s) := by
  unfold grantHead
  split
  · refine .ite (fun _ => takeUpOnly_within.after (rest_within.after (.mono (modChannel_within _ _)))) fun _ => ?_
    refine startMovement_within.after ((setSlot_within _ _).after ?_)
    split
    · exact .mono (modChannel_within _ _)
    · exact .refl
  · exact takeUpOnly_within.after rest_within.mono

theorem grantLoop_within {fuel : Nat} : Within valveFoot s (grantLoop fuel s) := by
  induction fuel generalizing s with
  | zero => exact .refl
  | succ n ih =>
    unfold grantLoop
    split
    · exact ih.after (grantHead_within.after (.mono (setList_within _)))
    · exact .refl

theorem grantSlots_within : Within valveFoot s (grantSlots s) := grantLoop_within

theorem takeUp_within {c : Channel} : Within valveFoot s (takeUp c s) := grantSlots_within.after takeUpOnly_within.mono

theorem takeUpIfAble_within {c : Channel} : Within valveFoot s (takeUpIfAble c s) := by
  unfold takeUpIfAble
  exact .ite (fun _ => takeUp_within) fun _ => .refl

theorem endMovement_within {c : Channel} {n : Nat} : Within valveFoot s (endMovement c n s) := by
  unfold endMovement
  split
  · exact takeUp_within.after (judgeOpen_within.after ((modChannel_within _ _).after
      (grantSlots_within.after (.mono (setSlot_within _ _)))))
  · exact .refl

theorem abortMarks_within {c : Channel} : Within portsFoot s (abortMarks c s) := by
  refine forEach_within fun e s => ?_
  split
  · exact raiseMark_within
  · exact .refl

theorem flush_within {c : Channel} : Within valveFoot s (flush c s) :=
  forgetIssued_within.after ((setList_within _).after ((modChannel_within _ _).after abortMarks_within.mono))

theorem jam_within {c : Channel} {m : Movement} {n : Nat} : Within valveFoot s (jam c m n s) :=
  raise_within.after (judgeOpen_within.after (forgetIssued_within.after ((modChannel_within _ _).after
    (flush_within.after ((modChannel_within _ _).after (grantSlots_within.after (.mono (setSlot_within _ _))))))))

theorem preempt_within {c : Channel} {p : InProgress} {m : Movement} {n : Nat} :
    Within valveFoot s (preempt c p m n s) := by
  unfold preempt
  dsimp only
  refine .ite (fun _ => ?_) fun _ => startMovement_within.after (.mono (modChannel_within _ _))
  exact takeUp_within.after (grantSlots_within.after ((setSlot_within _ _).after (judgeOpen_within.after
    (rest_within.after (.mono (modChannel_within _ _))))))

theorem placeUrgent_within {n : Nat} {c : Channel} : Within valveFoot s (placeUrgent n c s) := by
  unfold placeUrgent
  dsimp only
  refine .ite (fun _ => .refl) fun _ => ?_
  split
  · exact preempt_within.after (.mono (modChannel_within _ _))
  · exact grantSlots_within.after ((setList_within _).after (.mono (modChannel_within _ _)))
  · exact takeUp_within.after ((modChannel_within _ _).after (.mono (modChannel_within _ _)))
  · exact takeUp_within.after (.mono (modChannel_within _ _))

theorem placeLoopMove_within {c : Channel} {n : Nat} : Within valveFoot s (placeLoopMove c n s) := by
  unfold placeLoopMove
  dsimp only
  refine .ite (fun _ => .refl) fun _ => ?_
  split
  · exact (setIssued_within _ _).after (.mono (modChannel_within _ _))
  · exact .ite (fun _ => takeUpIfAble_within.after ((setIssued_within _ _).after (.mono (modChannel_within _ _))))
      fun _ => .refl

theorem appendEntries_within {c : Channel} {l : List Entry} : Within valveFoot s (appendEntries c l s) :=
  takeUpIfAble_within.after (.mono (modChannel_within _ _))

theorem enterUncalibrated_within {c : Channel} : Within valveFoot s (enterUncalibrated c s) :=
  appendEntries_within.after (forgetIssued_within.after (.mono (modChannel_within _ _)))

theorem writeZoneOf_within {z : Option Zone} : Within valveFoot s (writeZoneOf z s) := by
  cases z
  · exact .refl
  · exact writeFlowReady_within.after writeValveCount_within.mono

theorem assign_within {c : Channel} {z : Option Zone} {a b d : Nat} : Within valveFoot s (assign c z a b d s) := by
  unfold assign
  dsimp only
  refine .ite (fun _ => .mono (modChannel_within _ _)) fun _ => ?_
  have h : ∀ f, Within valveFoot s (writeZoneOf z (writeZoneOf (s.channel c).zone
      (judgeOpenOnly c ((flush c s).modChannel c f)))) := fun f =>
    writeZoneOf_within.after (writeZoneOf_within.after (judgeOpenOnly_within.after ((modChannel_within _ _).after
      flush_within)))
  exact .ite (fun _ => enterUncalibrated_within.after (h _)) fun _ => h _

/-! ### The Demand Unit -/

def frostFoot : Foot := { valves := true, demand := true, zones := true, frost := true, firing := true, ports := true }

def evalFoot : Foot :=
  { valves := true, demand := true, zones := true, calls := true, frost := true, firing := true, ports := true }

/-- What follows the flag at an entry into frost emergency changes no emergency. -/
theorem afterFrostFlag_within {b : Bool} {z : Zone} (t : State) :
    Within valveFoot t (if b then frostEvent (raise .frostEmergency (.zone z) [] (forEach (channelsOf z t)
      (placeUrgent 100) t)) else raise .frostEmergency (.zone z) [] (forEach (channelsOf z t) (placeUrgent 100) t)) := by
  have h : Within valveFoot t (raise .frostEmergency (.zone z) [] (forEach (channelsOf z t) (placeUrgent 100) t)) :=
    raise_within.after (forEach_within fun _ _ => placeUrgent_within)
  exact .ite (fun _ => frostEvent_within.after h) fun _ => h

theorem enterFrost_within {b : Bool} {z : Zone} : Within frostFoot s (enterFrost b z s) :=
  (afterFrostFlag_within _).after (.mono (modZone_within_frost z true))

/-- An entry leaves the zone in frost emergency. -/
theorem frostEmergency_enterFrost (b : Bool) (z : Zone) : (enterFrost b z s).zones[z].frostEmergency = true := by
  have h := (afterFrostFlag_within (b := b) (z := z)
    (s.modZone z fun r => { r with frostEmergency := true })).frosts rfl z
  refine h.trans ?_
  rw [zones_modZone, Vector.get_set_zone, if_pos rfl]

theorem frostStep_within {b : Bool} {z : Zone} : Within frostFoot s (frostStep b z s) := by
  unfold frostStep
  refine .ite (fun _ => .mono (modZone_within_frost z false)) fun _ => ?_
  exact .ite (fun _ => enterFrost_within) fun _ => .refl

theorem target_demandStep (t : Params) (r : ZoneRecord) : (demandStep t r).target = r.target := by
  unfold demandStep
  split <;> rfl

theorem callState_demandStep (t : Params) (r : ZoneRecord) (h : r.frostEmergency = true) :
    (demandStep t r).callState = .calling := by
  unfold demandStep
  rw [if_pos h]

/-- Step 4 keeps the list the set of CALLING zones, each once. -/
theorem listStep_sound {entered : Bool} {z : Zone} {old new : CallState} {l : List Zone} (hn : l.Nodup)
    (hz : z ∈ l ↔ old = .calling) (he : entered = true → new = .calling) :
    (listStep entered z old new l).Nodup ∧ (z ∈ listStep entered z old new l ↔ new = .calling) ∧
      ∀ y, y ≠ z → (y ∈ listStep entered z old new l ↔ y ∈ l) := by
  unfold listStep
  cases entered
  · simp only [Bool.false_eq_true, if_false]
    cases old <;> cases new <;> simp_all [List.nodup_append, List.Nodup.filter]
    intro a ha e
    exact hz (e ▸ ha)
  · have := he rfl
    subst this
    simp only [if_true]
    refine ⟨List.nodup_cons.2 ⟨by simp, hn.filter _⟩, by simp, fun y hy => by simp [hy]⟩

theorem evaluateZone_within {b : Bool} {z : Zone} : Within evalFoot s (evaluateZone b z s) := by
  have h1 : Within frostFoot s (frostStep b z s) := frostStep_within
  have ht : ∀ y : Zone, (evaluateZone b z s).zones[y].target = s.zones[y].target := by
    intro y
    refine Eq.trans ?_ (h1.targets rfl y)
    show ((frostStep b z s).zones.set z _)[y].target = _
    rw [Vector.get_set_zone]
    split
    · next e => subst e; exact target_demandStep _ _
    · rfl
  have kt : s.targetsSound → (evaluateZone b z s).targetsSound :=
    targetsSound_of_eq (s := s) (h1.written rfl) fun y => congrArg (fun p => p.2.2.2.2.1) (ht y)
  have kc : s.callsSound → (evaluateZone b z s).callsSound := by
    intro h
    have hl : (frostStep b z s).demand.heatList = s.demand.heatList := h1.heatList rfl
    have hs := listStep_sound (entered := !frostExit s.zones[z] s.taken.frostFloor &&
      frostEntry s.zones[z] s.taken.frostFloor) (new := (demandStep
        (frostStep b z s).taken (frostStep b z s).zones[z]).callState) h.1 (h.2 z) (by
          intro e
          simp only [Bool.and_eq_true, Bool.not_eq_true'] at e
          refine callState_demandStep _ _ ?_
          unfold frostStep
          rw [e.1, e.2]
          exact frostEmergency_enterFrost b z)
    have hz : ((frostStep b z s).modZone z (demandStep (frostStep b z s).taken)).zones[z] =
        demandStep (frostStep b z s).taken (frostStep b z s).zones[z] := by
      rw [zones_modZone, Vector.get_set_zone, if_pos rfl]
    refine ⟨?_, fun y => ?_⟩
    · show (listStep _ _ _ _ _).Nodup
      rw [hz]
      show (listStep _ _ _ _ (frostStep b z s).demand.heatList).Nodup
      rw [hl]
      exact hs.1
    · show y ∈ listStep _ _ _ _ _ ↔ ((frostStep b z s).zones.set z _)[y].callState = _
      rw [hz]
      show y ∈ listStep _ _ _ _ (frostStep b z s).demand.heatList ↔ _
      rw [hl, Vector.get_set_zone]
      by_cases e : y = z
      · subst e
        rw [if_pos rfl]
        exact hs.2.1
      · rw [if_neg (Ne.symm e), h1.callStates rfl y]
        exact (hs.2.2 y e).trans (h.2 y)
  constructor
  case keepsTargets => exact kt
  case keepsCalls => exact kc
  case targets => exact fun _ => ht
  case keepsPorts => exact h1.keepsPorts
  case keepsPool => exact h1.keepsPool
  case keepsStacks => exact h1.keepsStacks
  case keepsBus => exact h1.keepsBus
  case pending => exact h1.pending
  case clock => exact h1.clock
  case written => exact h1.written
  case taken => exact h1.taken
  case store => exact h1.store
  case arbiter => exact h1.arbiter
  case contacts => exact h1.contacts
  case bus => exact h1.bus
  case report => exact h1.report
  case link => exact h1.link
  all_goals (intro e; cases e)

theorem writeServed_within : Within { zones := true } s (writeServed s) :=
  forEach_within fun z _ => modZone_within z (fun _ => rfl) fun _ => rfl

theorem issueLoopMove_within {z : Zone} {c : Channel} : Within valveFoot s (issueLoopMove z c s) := by
  unfold issueLoopMove
  dsimp only
  split
  all_goals first
    | exact .ite (fun _ => placeLoopMove_within) fun _ => .refl
    | exact .refl

theorem loopMoves_within {z : Zone} : Within valveFoot s (loopMoves z s) :=
  forEach_within fun _ _ => issueLoopMove_within

theorem repeatOp_within {n : Nat} {f : State → State} (h : ∀ s, Within F s (f s)) : Within F s (repeatOp n f s) := by
  induction n generalizing s with
  | zero => exact .refl
  | succ n ih => exact (h s).trans ih

theorem finishEvaluation_within {n : Nat} {f : List Zone → List Zone} : Within valveFoot s (finishEvaluation n f s) :=
  Within.after (forEach_within fun _ _ => loopMoves_within)
    (Within.after (repeatOp_within fun _ => frostEvent_within) (callUpdate_within.after writeServed_within.mono))

theorem evaluation_within {l : List Zone} {f : List Zone → List Zone} : Within evalFoot s (evaluation l f s) := by
  unfold evaluation
  refine finishEvaluation_within.after (Within.after (F := evalFoot) (forEach_within fun _ _ => evaluateZone_within) ?_)
  refine .mono (F := { demand := true }) ?_
  apply demand_within
  rfl

end Sys2Proof.Machine
end

