-- ==== Sys2Proof/Laws/Store.lean ====
section
/-! SUPPORT. What the operations of Machine/ReportOps, StoreOps and ContactOps can do. -/

namespace Sys2Proof.Machine

set_option Elab.async false

variable {F : Foot} {s : State}

/-! ### The Report Processor -/

def measureFoot : Foot := { zones := true, demand := true }

theorem recompute_within {z : Zone} : Within measureFoot s (recompute z s) := by
  unfold recompute
  dsimp only
  exact .ite (fun _ => .mono (modZone_within z (fun _ => rfl) fun _ => rfl)) fun _ =>
    giveZoneEvent_within.after (.mono (modZone_within z (fun _ => rfl) fun _ => rfl))

theorem recomputeOf_within {r : UnitRecord} : Within measureFoot s (recomputeOf r s) := by
  unfold recomputeOf
  split
  · exact recompute_within
  · exact .refl

def ageFoot : Foot := { zones := true, demand := true, report := true, ports := true }

theorem ageUnit_within {u : UnitIx} : Within ageFoot s (ageUnit u s) := by
  unfold ageUnit
  split
  · split
    · dsimp only
      refine .ite (fun _ => .refl) fun _ => recomputeOf_within.after ?_
      refine .ite (fun _ => raise_within.after ?_) fun _ => ?_
      all_goals exact .ite (fun _ => raise_within.after (.mono (setUnit_within _ _))) fun _ => .mono (setUnit_within _ _)
    · exact .refl
  · exact .refl

/-! ### Resolution -/

def settleFoot : Foot :=
  { zones := true, targets := true, bus := true, demand := true, ports := true }

/-- The resolved values written. -/
theorem writeResolved_within (z : Zone) (n : Int × Basis)
    (h : s.targetsSound → s.written.frostFloor ≤ n.1 ∧ n.1 ≤ s.written.maxTarget) :
    Within { zones := true, targets := true } s
      (s.modZone z fun r => { r with resolvedTarget := n.1, resolvedBasis := n.2 }) := by
  have hy : ∀ y : Zone, (s.modZone z fun r => { r with resolvedTarget := n.1, resolvedBasis := n.2 }).zones[y].callState
      = s.zones[y].callState := by
    intro y; rw [zones_modZone, Vector.get_set_zone]; split
    · next e => subst e; rfl
    · rfl
  have hx : ∀ y : Zone, (s.modZone z fun r =>
      { r with resolvedTarget := n.1, resolvedBasis := n.2 }).zones[y].frostEmergency = s.zones[y].frostEmergency := by
    intro y; rw [zones_modZone, Vector.get_set_zone]; split
    · next e => subst e; rfl
    · rfl
  have kt : s.targetsSound →
      (s.modZone z fun r => { r with resolvedTarget := n.1, resolvedBasis := n.2 }).targetsSound := by
    intro k
    refine ⟨k.1, fun y => ?_⟩
    rw [zones_modZone, Vector.get_set_zone]
    split
    · exact h k
    · exact k.2 y
  have kc : s.callsSound →
      (s.modZone z fun r => { r with resolvedTarget := n.1, resolvedBasis := n.2 }).callsSound :=
    callsSound_of_eq (s := s) rfl hy
  constructor
  case keepsTargets => exact kt
  case keepsCalls => exact kc
  all_goals (intros; first | rfl | assumption | contradiction | apply hy | apply hx)

/-- What resolution sets off, given the resolved values. -/
def settleRest (force : Bool) (z : Zone) (n : Int × Basis) (r : ZoneRecord) (s : State) : State :=
  let changed := n.1 != r.resolvedTarget || n.2 != r.resolvedBasis
  let s := if (changed || force) && r.serviceMode != .unused then queueAnnounce z n.1 n.2 s else s
  let s := if changed then raise .targetChanged (.zone z) (encTemp n.1 ++ [n.2.code]) s else s
  if n.1 = r.resolvedTarget then s else giveZoneEvent z s

def State.resolution (s : State) (z : Zone) : Int × Basis :=
  resolve s.zones[z].serviceMode s.zones[z].baseTarget s.store.overrides[z] s.written.frostFloor s.written.maxTarget

theorem settle_eq (force : Bool) (z : Zone) (s : State) : settle force z s =
    settleRest force z (s.resolution z) s.zones[z]
      (s.modZone z fun r => { r with resolvedTarget := (s.resolution z).1, resolvedBasis := (s.resolution z).2 }) := rfl

def settleRestFoot : Foot := { bus := true, demand := true, ports := true }

theorem settleRest_within {f : Bool} {z : Zone} {n : Int × Basis} {r : ZoneRecord} :
    Within settleRestFoot s (settleRest f z n r s) := by
  have h1 : ∀ (t : State) (b : Bool), Within settleRestFoot t (if b = true then queueAnnounce z n.1 n.2 t else t) :=
    fun t b => .ite (fun _ => queueAnnounce_within.mono) fun _ => .refl
  have h2 : ∀ (t : State) (b : Bool) (d : List Byte), Within settleRestFoot t
      (if b = true then raise .targetChanged (.zone z) d t else t) :=
    fun t b d => .ite (fun _ => raise_within.mono) fun _ => .refl
  unfold settleRest
  dsimp only
  exact .ite (fun _ => (h1 _ _).trans (h2 _ _ _)) fun _ => giveZoneEvent_within.after ((h1 _ _).trans (h2 _ _ _))

theorem settle_within {f : Bool} {z : Zone} : Within settleFoot s (settle f z s) := by
  rw [settle_eq]
  refine settleRest_within.after (.mono (writeResolved_within z _ fun h => ?_))
  have := h.1
  unfold Params.limitsSound at this
  exact resolve_within_limits _ _ _ _ _ (by omega)

/-- A zone settled lies within the limits, and no other zone's target moves. -/
theorem resolvedTarget_settle (f : Bool) (z y : Zone) (s : State) : (settle f z s).zones[y].resolvedTarget =
    if z = y then (s.resolution z).1 else s.zones[y].resolvedTarget := by
  rw [settle_eq, (settleRest_within (f := f)).zones rfl, zones_modZone, Vector.get_set_zone]
  split <;> rfl

/-! ### Points and counts -/

def pointFoot : Foot := { zones := true, targets := true, store := true, ports := true }

theorem takePoint_within {z : Zone} : Within pointFoot s (takePoint z s) := by
  have hk : Within { store := true } s
      { s with store := { s.store with current := s.store.current.set z ((s.currentOf z).map (·.minute)) } } :=
    store_within rfl rfl rfl
  exact Within.after
    (modZone_within_targets z (f := fun r => { r with
      baseTarget := (baseOf (s.currentOf z) s.zones[z].defaultTarget).1
      baseSource := (baseOf (s.currentOf z) s.zones[z].defaultTarget).2 }) (fun _ => rfl) fun _ => rfl) hk.mono

theorem raiseExpired_within {z : Zone} {a b c : Byte} : Within portsFoot s (raiseExpired z a b c s) := raise_within

theorem endPointHold_within {z : Zone} : Within pointFoot s (endPointHold z s) := by
  unfold endPointHold
  split
  · refine .ite (fun _ => raiseExpired_within.after (.mono (modStack_within z fun _ _ => rfl))) fun _ => .refl
  · exact .refl

theorem pointStep_within {z : Zone} : Within pointFoot s (pointStep z s) := by
  unfold pointStep
  exact .ite (fun _ => endPointHold_within.after takePoint_within) fun _ => takePoint_within

theorem sound_lower {m : Nat} {k : Stack} (h : k.sound) :
    Stack.sound { k with hold := k.hold.bind (Hold.lower m), boost := k.boost.bind (Boost.lower m) } := by
  intro hb
  have hb' : k.boost.isSome = true := by
    cases e : k.boost with
    | none => simp only [e] at hb; exact hb
    | some _ => rfl
  have hh := h hb'
  cases e : k.hold with
  | none => rfl
  | some d =>
    rw [e] at hh
    simp only [Option.bind_some]
    cases e2 : d.lower m with
    | none => rfl
    | some d' =>
      simp only [Option.any_some] at hh ⊢
      rw [locked_of_lower e2, hh]

theorem lowerCounts_within {m : Nat} {z : Zone} : Within pointFoot s (lowerCounts m z s) := by
  unfold lowerCounts
  dsimp only
  split
  · refine .ite (fun _ => raiseExpired_within.after ?_) fun _ => ?_
    all_goals
      split
      · refine .ite (fun _ => raiseExpired_within.after ?_) fun _ => ?_
        all_goals exact .mono (modStack_within z sound_lower)
      · exact .mono (modStack_within z sound_lower)
  · split
    · refine .ite (fun _ => raiseExpired_within.after ?_) fun _ => ?_
      all_goals exact .mono (modStack_within z sound_lower)
    · exact .mono (modStack_within z sound_lower)

def storeFoot : Foot :=
  { zones := true, targets := true, store := true, bus := true, demand := true, ports := true }

theorem settling_within {z : Zone} {f : State → State} (h : ∀ s, Within pointFoot s (f s)) :
    Within storeFoot s (settling z f s) := by
  unfold settling
  exact .ite (fun _ => (h s).mono) fun _ => settle_within.after (h s).mono

theorem minuteEvaluation_within {m : Nat} : Within storeFoot s (minuteEvaluation m s) :=
  forEach_within fun _ _ => settling_within fun _ => lowerCounts_within.after pointStep_within

/-! ### Answers -/

/-- What every request carried out in the Program Store may change. -/
def requestFoot : Foot :=
  { clock := true, written := true, zones := true, targets := true, store := true, bus := true, demand := true,
    ports := true }

theorem underZoneClaim_within {p : Port} {b : Byte} {act : Zone → Answer} (h : ∀ z, Within F s (act z).1) :
    Within F s (underZoneClaim p b s act).1 := by
  unfold underZoneClaim
  split
  · exact .refl
  · split
    · exact h _
    · exact .refl

theorem inRange_within {α : Type} {v : Option α} {u : Option ClaimIx} {act : α → Answer}
    (h : ∀ x, v = some x → Within F s (act x).1) : Within F s (inRange v u s act).1 := by
  unfold inRange
  split
  · exact .refl
  · exact h _ rfl

theorem writeZone_within {z : Zone} {m : ServiceMode} {t : Int} {u : Option UnitIx} :
    Within requestFoot s (writeZone z m t u s) := by
  unfold writeZone
  dsimp only
  refine .ite (fun _ => ?_) fun _ => giveZoneEvent_within.after ?_
  all_goals refine .ite (fun _ => ?_) fun _ => recompute_within.after ?_
  all_goals exact settle_within.after (.mono (modZone_within_targets z (fun _ => rfl) fun _ => rfl))

theorem storeSetZone_within {p : Port} {zone mode : Byte} {target : Half} {primary : Byte} :
    Within requestFoot s (storeSetZone p zone mode target primary s).1 := by
  refine underZoneClaim_within fun z => inRange_within fun m _ => inRange_within fun t _ => inRange_within fun u _ => ?_
  split
  · exact .refl
  · exact writeZone_within

/-! ### The point pool (R31) -/

theorem sum_map_set {l : List Zone} (hn : l.Nodup) {f g : Zone → Nat} {z : Zone} (hz : z ∈ l)
    (h : ∀ y, y ≠ z → f y = g y) : (l.map f).sum + g z = (l.map g).sum + f z := by
  induction l with
  | nil => cases hz
  | cons x l ih =>
    simp only [List.map_cons, List.sum_cons]
    rw [List.nodup_cons] at hn
    by_cases e : x = z
    · subst e
      have : l.map f = l.map g := List.map_congr_left fun y hy => h y fun e => hn.1 (e ▸ hy)
      rw [this]
      omega
    · have hz' : z ∈ l := by
        rcases List.mem_cons.1 hz with e' | e'
        · exact absurd e'.symm e
        · exact e'
      have := ih hn.2 hz'
      rw [h x e]
      omega

theorem nodup_allZones : allZones.Nodup := List.nodup_finRange 16

theorem mem_allZones (z : Zone) : z ∈ allZones := List.mem_finRange z

theorem Vector.get_set_list (v : Vector (List Point) 16) (z y : Zone) (l : List Point) :
    (v.set z l)[y] = if z = y then l else v[y] := by
  simp only [Fin.getElem_fin, Vector.getElem_set, Fin.val_inj]

/-- A list written in strictly increasing minute, of at most 64 points, that the pool can hold. -/
theorem setPoints_within (z : Zone) (l : List Point) (hl : s.poolSound →
    l.Pairwise (fun a b => a.minute < b.minute) ∧ l.length ≤ Config.listMax ∧
      l.length ≤ s.store.free + s.store.lists[z].length) : Within { store := true } s (s.setPoints z l) := by
  have kp : s.poolSound → (s.setPoints z l).poolSound := by
    intro h
    have hh := hl h
    have h1 := h.1
    have e : ((s.setPoints z l).store.used) + s.store.lists[z].length = s.store.used + l.length := by
      unfold Store.used
      have := sum_map_set (l := allZones) nodup_allZones (f := fun y => (s.setPoints z l).store.lists[y].length)
        (g := fun y => s.store.lists[y].length) (z := z) (mem_allZones z) (fun y hy => by
          rw [lists_setPoints, Vector.get_set_list, if_neg (Ne.symm hy)])
      rw [lists_setPoints, Vector.get_set_list, if_pos rfl] at this
      exact this
    refine ⟨?_, fun y => ?_⟩
    · rw [free_setPoints]
      omega
    · rw [lists_setPoints, Vector.get_set_list]
      split
      · exact ⟨hh.1, hh.2.1⟩
      · exact h.2 y
  constructor
  case keepsPool => exact kp
  all_goals (intros; first | rfl | assumption | contradiction)

theorem editDone_within (z : Zone) (l : List Point) (hl : s.poolSound →
    l.Pairwise (fun a b => a.minute < b.minute) ∧ l.length ≤ Config.listMax ∧
      l.length ≤ s.store.free + s.store.lists[z].length) : Within requestFoot s (editDone z l s).1 := by
  have h1 : Within requestFoot s (settling z (fun s => takePoint z (s.setPoints z l)) s) := by
    unfold settling
    have h2 : Within requestFoot s (takePoint z (s.setPoints z l)) :=
      takePoint_within.after (.mono (setPoints_within z l hl))
    exact .ite (fun _ => h2) fun _ => settle_within.after h2
  have h3 : ∀ t : State, Within { store := true } t
      { t with store := { t.store with revisions := t.store.revisions.set z (t.store.revisions[z] + 1) } } :=
    fun t => store_within rfl rfl rfl
  exact (h3 _).after h1

theorem storeInsert_within {p : Port} {zone : Byte} {minute : Half} {kind : Byte} {target : Half} :
    Within requestFoot s (storeInsert p zone minute kind target s).1 := by
  refine underZoneClaim_within fun z => inRange_within fun m _ => inRange_within fun k _ => ?_
  dsimp only
  split
  · exact .refl
  · rename_i hany
    split
    · exact .refl
    · split
      · exact .refl
      · refine editDone_within z _ fun h => ⟨?_, ?_, ?_⟩
        · refine pairwise_insertPoint _ _ (h.2 z).1 fun q hq e => hany ?_
          exact List.any_eq_true.2 ⟨q, hq, by simpa using e⟩
        · rw [length_insertPoint]; omega
        · rw [length_insertPoint]; omega

theorem storeDelete_within {p : Port} {zone : Byte} {minute : Half} :
    Within requestFoot s (storeDelete p zone minute s).1 := by
  refine underZoneClaim_within fun z => inRange_within fun m _ => ?_
  dsimp only
  split
  · refine editDone_within z _ fun h => ⟨(h.2 z).1.filter _, ?_, ?_⟩
    · exact Nat.le_trans (List.length_filter_le _ _) (h.2 z).2
    · exact Nat.le_trans (List.length_filter_le _ _) (Nat.le_add_left _ _)
  · exact .refl

theorem storeLoad_within {p : Port} {zone : Byte} {points : List (BitVec 24)} :
    Within requestFoot s (storeLoad p zone points s).1 := by
  refine underZoneClaim_within fun z => ?_
  dsimp only
  split
  · exact .refl
  · split
    · exact .refl
    · split
      · exact .refl
      · rename_i hlen _ _ _ hrep
        split
        · exact .refl
        · refine editDone_within z _ fun _ => ⟨?_, ?_, ?_⟩
          · exact pairwise_sortPoints _ (nodup_of_firstRepeat _ _ _ hrep).1
          · rw [length_sortPoints]
            exact Nat.le_trans (List.length_filterMap_le _ _) (by omega)
          · rw [length_sortPoints]; omega

theorem storeRead_within {zone start : Byte} : Within requestFoot s (storeRead zone start s).1 :=
  inRange_within fun _ _ => inRange_within fun _ _ => .refl

theorem storeClaim_within {p : Port} {t : Byte} : Within requestFoot s (storeClaim p t s).1 := by
  refine inRange_within fun c _ => ?_
  dsimp only
  split
  · exact .mono (setClaim_within _ _)
  · split
    · exact .refl
    · exact .refl

theorem storeRelease_within {p : Port} {t : Byte} : Within requestFoot s (storeRelease p t s).1 := by
  refine inRange_within fun c _ => ?_
  split
  · exact .mono (setClaim_within _ _)
  · exact .refl

theorem pushHold_within {p : Port} {z : Zone} {h : Hold} : Within requestFoot s (pushHold p z h s) := by
  unfold pushHold
  refine settle_within.after (Within.after (modStack_within z fun _ e => by cases e) ?_)
  split
  · exact .ite (fun _ => .refl) fun _ => raise_within.mono
  · exact .refl

theorem storePushHold_within {p : Port} {zone : Byte} {target : Half} {locked holdEnd : Byte} {minutes : Half} :
    Within requestFoot s (storePushHold p zone target locked holdEnd minutes s).1 :=
  inRange_within fun _ _ => inRange_within fun _ _ => inRange_within fun _ _ => inRange_within fun _ _ =>
    pushHold_within

theorem storeCancelHold_within {zone : Byte} : Within requestFoot s (storeCancelHold zone s).1 := by
  refine inRange_within fun z _ => ?_
  split
  · exact .refl
  · exact settle_within.after (.mono (modStack_within z fun _ _ => rfl))

theorem storeCancelBoost_within {zone : Byte} : Within requestFoot s (storeCancelBoost zone s).1 := by
  refine inRange_within fun z _ => ?_
  split
  · exact .refl
  · exact settle_within.after (.mono (modStack_within z fun _ e => by cases e))

theorem takeTime_within {p : Port} {m n : Nat} : Within requestFoot s (takeTime p m n s) :=
  raise_within.after (Within.after (forEach_within fun _ _ => settling_within fun _ => pointStep_within)
    (.mono (clock_within _)))

theorem storeSetTime_within {p : Port} {m : Half} {b : Byte} : Within requestFoot s (storeSetTime p m b s).1 := by
  refine inRange_within fun x _ => inRange_within fun y _ => ?_
  split
  · exact .refl
  · exact takeTime_within

theorem freeAuthority_within : Within { clock := true } s s.freeAuthority := clock_within _

theorem storeReleaseTime_within {p : Port} : Within requestFoot s (storeReleaseTime p s).1 := by
  unfold storeReleaseTime
  split
  · exact freeAuthority_within.mono
  · exact .refl

/-! ### CONFIGURE -/

theorem limits_putItem {p : Params} {i : ConfigItem} (hi : itemInRange i = true) (h : p.limitsSound) :
    (p.putItem i).limitsSound := by
  unfold itemInRange at hi
  simp only [Bool.and_eq_true, decide_eq_true_eq] at hi
  unfold Params.putItem
  generalize hn : i.param.toNat = n at *
  generalize paramValue n i.value = v at *
  unfold Params.put
  split <;> first
    | exact h
    | (simp only [paramRange] at hi
       unfold Params.limitsSound at *
       dsimp only
       omega)

theorem limits_putAll {p : Params} {l : List ConfigItem} (hl : ∀ i ∈ l, itemInRange i = true) (h : p.limitsSound) :
    (p.putAll l).limitsSound := by
  unfold Params.putAll
  induction l generalizing p with
  | nil => exact h
  | cons x l ih =>
    exact ih (fun i hi => hl i (List.mem_cons_of_mem _ hi)) (limits_putItem (hl x List.mem_cons_self) h)

theorem itemInRange_of_configFault {p : Params} {l : List ConfigItem} (h : configFault p l = none) :
    ∀ i ∈ l, itemInRange i = true := by
  unfold configFault at h
  split at h
  · cases h
  · split at h
    · cases h
    · split at h
      · cases h
      · split at h
        · cases h
        · rename_i hf
          exact all_of_firstFault _ _ _ hf

/-- Zones settled one after another lie within the limits, and so does every zone that did. -/
theorem settleAll_limits {l : List Zone} (hw : s.written.limitsSound) (y : Zone)
    (hy : y ∈ l ∨ (s.written.frostFloor ≤ s.zones[y].resolvedTarget ∧
      s.zones[y].resolvedTarget ≤ s.written.maxTarget)) :
    s.written.frostFloor ≤ (forEach l (settle false) s).zones[y].resolvedTarget ∧
      (forEach l (settle false) s).zones[y].resolvedTarget ≤ s.written.maxTarget := by
  induction l generalizing s with
  | nil => exact hy.resolve_left (by simp)
  | cons x l ih =>
    have e : (settle false x s).written = s.written := settle_within.written rfl
    have := ih (s := settle false x s) (by rw [e]; exact hw) (by
      by_cases hx : x = y
      · right
        rw [e, resolvedTarget_settle, if_pos hx]
        have hw' := hw
        unfold Params.limitsSound at hw'
        exact resolve_within_limits _ _ _ _ _ (by omega)
      · rcases hy with h | h
        · left
          rcases List.mem_cons.1 h with h | h
          · exact absurd h.symm hx
          · exact h
        · right
          rw [e, resolvedTarget_settle, if_neg hx]
          exact h)
    rw [e] at this
    exact this

theorem writeConfig_within {l : List ConfigItem} (hl : ∀ i ∈ l, itemInRange i = true) :
    Within requestFoot s (writeConfig l s) := by
  have hrest : Within requestFoot { s with written := s.written.putAll l } (writeConfig l s) := by
    unfold writeConfig
    dsimp only
    exact .ite (fun _ => .refl) fun _ => forEach_within fun _ _ => settle_within.mono
  have hw : (writeConfig l s).written = s.written.putAll l := by
    unfold writeConfig
    dsimp only
    split
    · rfl
    · exact (forEach_within (F := settleFoot) fun _ _ => settle_within).written rfl
  have kt : s.targetsSound → (writeConfig l s).targetsSound := by
    intro h
    have h1 := limits_putAll hl h.1
    refine ⟨by rw [hw]; exact h1, fun y => ?_⟩
    rw [hw]
    unfold writeConfig
    dsimp only
    split
    · rename_i he
      have hy := h.2 y
      dsimp only at he ⊢
      omega
    · exact settleAll_limits (s := { s with written := s.written.putAll l }) h1 y (.inl (List.mem_finRange y))
  constructor
  case keepsTargets => exact kt
  case keepsPorts => exact hrest.keepsPorts
  case keepsPool => exact hrest.keepsPool
  case keepsStacks => exact hrest.keepsStacks
  case keepsCalls => exact hrest.keepsCalls
  case keepsBus => exact hrest.keepsBus
  case pending => exact hrest.pending
  case taken => exact hrest.taken
  case arbiter => exact hrest.arbiter
  case contacts => exact hrest.contacts
  case report => exact hrest.report
  case valves => exact hrest.valves
  case firing => exact hrest.firing
  case link => exact hrest.link
  case callStates => exact hrest.callStates
  case frosts => exact hrest.frosts
  case heatList => exact hrest.heatList
  all_goals (intro e; cases e)

theorem storeConfigure_within {p : Port} {l : List ConfigItem} : Within requestFoot s (storeConfigure p l s).1 := by
  unfold storeConfigure
  split
  · split
    · exact .refl
    · rename_i h
      exact writeConfig_within (itemInRange_of_configFault h)
  · exact .refl

/-! ### Every request, and the grants -/

theorem storeHost_within {p : Port} {r : HostReq} : Within requestFoot s (storeHost p r s).1 := by
  cases r
  case setZone => exact storeSetZone_within
  case scheduleInsert => exact storeInsert_within
  case scheduleDelete => exact storeDelete_within
  case scheduleLoad => exact storeLoad_within
  case scheduleRead => exact storeRead_within
  case claim => exact storeClaim_within
  case release => exact storeRelease_within
  case pushHold => exact storePushHold_within
  case cancelHold => exact storeCancelHold_within
  case cancelBoost => exact storeCancelBoost_within
  case setTime => exact storeSetTime_within
  case releaseTime => exact storeReleaseTime_within
  case configure => exact storeConfigure_within
  all_goals exact .refl

theorem freeAll_within {p : Port} : Within requestFoot s (freeAll p s) := by
  have h : Within requestFoot s (forEach allClaims (fun c s => if s.holds p c then s.setClaim c none else s) s) :=
    forEach_within fun _ _ => .ite (fun _ => .mono (setClaim_within _ _)) fun _ => .refl
  unfold freeAll
  exact .ite (fun _ => freeAuthority_within.after h) fun _ => h

theorem storeBoost_within {u : UnitIx} {z : Zone} {d : Byte} {m : Half} :
    Within requestFoot s (storeBoost u z d m s).1 := by
  unfold storeBoost
  split
  · exact .refl
  · split
    · exact .refl
    · rename_i hl
      exact settle_within.after (.mono (modStack_within z fun _ _ => Bool.eq_false_of_not_eq_true hl))

theorem removeBoosts_within {u : UnitIx} : Within requestFoot s (removeBoosts u s) := by
  refine forEach_within fun z s => ?_
  refine .ite (fun _ => settle_within.after (.mono (modStack_within z fun _ e => ?_))) fun _ => .refl
  cases e

theorem storeWindow_within {z : Zone} {k : OrderKind} : Within requestFoot s (storeWindow z k s) := by
  unfold storeWindow
  exact .ite (fun _ => .refl) fun _ => settle_within.after (.mono (modStack_within z fun h => h))

theorem carryOut_within {r : StoreReq} : Within requestFoot s (carryOut r s).1 := by
  cases r <;> simp only [carryOut]
  case host => exact storeHost_within
  case check => exact .refl
  case resetStep => exact freeAll_within
  case boost => exact storeBoost_within
  case boostCancel => exact removeBoosts_within
  case ownerRemoval => exact removeBoosts_within
  case window => exact storeWindow_within
  case minuteEval => exact minuteEvaluation_within.mono

def grantFoot : Foot :=
  { clock := true, written := true, zones := true, targets := true, store := true, arbiter := true, bus := true,
    demand := true, contacts := true, report := true, ports := true }

theorem refill_within {q : Requester} : Within grantFoot s (refill q s) := by
  unfold refill
  split
  · split
    · exact joinWaiting_within.after (.mono (contacts_within _))
    · exact .refl
  · split
    · refine joinWaiting_within.after (.mono (F := { report := true }) ?_)
      apply report_within
      · exact Nat.le_refl _
      · rfl
    · exact .refl
  · exact .refl

theorem grant_within {q : Requester} {r : StoreReq} : Within grantFoot s (grant q r s) := by
  unfold grant
  dsimp only
  refine refill_within.after ?_
  have h1 : Within grantFoot s
      { s.setWaiting q none with arbiter := { (s.setWaiting q none).arbiter with parked := q } } :=
    Within.after (arbiter_within (s := s.setWaiting q none) _) setWaiting_within.mono
  exact Within.after (arbiter_within (s := (carryOut r _).1) _) (carryOut_within.after h1)

theorem grantNext_within : Within grantFoot s (grantNext s) := by
  unfold grantNext
  split
  · exact grant_within
  · exact .refl

theorem place_within {q : Requester} {r : StoreReq} : Within grantFoot s (place q r s) := by
  unfold place
  exact .ite (fun _ => grantNext_within.after joinWaiting_within.mono) fun _ => joinWaiting_within.mono

/-! ### The Contact Monitor -/

theorem modInput_within {z : Zone} {f : InputWork → InputWork} : Within { contacts := true } s (s.modInput z f) :=
  contacts_within _

theorem setOrders_within {l : List WindowOrder} : Within { contacts := true } s (s.setOrders l) := contacts_within _

theorem raiseOrder_within {z : Zone} {k : OrderKind} : Within grantFoot s (raiseOrder z k s) := by
  unfold raiseOrder
  dsimp only
  refine .ite (fun _ => setOrders_within.after modInput_within.mono) fun _ => ?_
  exact .ite (fun _ => place_within.after modInput_within.mono) fun _ => setOrders_within.after modInput_within.mono

theorem pushIfFree_within {z : Zone} : Within grantFoot s (pushIfFree z s) := by
  unfold pushIfFree
  exact .ite (fun _ => .refl) fun _ => raiseOrder_within

theorem removeIfAsserted_within {z : Zone} : Within grantFoot s (removeIfAsserted z s) := by
  unfold removeIfAsserted
  exact .ite (fun _ => raiseOrder_within) fun _ => .refl

theorem edgeNotice_within {z : Zone} {k : ContactSettings} {c : ContactState} :
    Within portsFoot s (edgeNotice z k c s) := by
  unfold edgeNotice
  exact .ite (fun _ => raise_within) fun _ => .refl

theorem acceptEdge_within {z : Zone} {k : ContactSettings} {c : ContactState} :
    Within grantFoot s (acceptEdge z k c s) := by
  unfold acceptEdge
  cases c
  · exact .ite (fun _ => pushIfFree_within.after (edgeNotice_within.after modInput_within.mono)) fun _ =>
      modInput_within.after (edgeNotice_within.after modInput_within.mono)
  · exact removeIfAsserted_within.after (modInput_within.after (edgeNotice_within.after modInput_within.mono))

theorem runTimer_within {z : Zone} {k : ContactSettings} : Within grantFoot s (runTimer z k s) := by
  unfold runTimer
  split
  · exact .ite (fun _ => pushIfFree_within.after modInput_within.mono) fun _ => modInput_within.mono
  · exact .refl

theorem sampleInput_within {v : BitVec 16} {z : Zone} : Within grantFoot s (sampleInput v z s) := by
  unfold sampleInput
  dsimp only
  refine .ite (fun _ => ?_) fun _ => .refl
  exact .ite (fun _ => acceptEdge_within) fun _ => runTimer_within.after modInput_within.mono

theorem sample_within {v : BitVec 16} : Within grantFoot s (sample v s) :=
  Within.after (forEach_within fun _ _ => sampleInput_within) (.mono (contacts_within _))

theorem applySettings_within {old : Vector ContactSettings 16} {z : Zone} :
    Within grantFoot s (applySettings old z s) := by
  unfold applySettings
  exact .ite (fun _ => removeIfAsserted_within.after modInput_within.mono) fun _ => .refl

end Sys2Proof.Machine
end

