-- ==== Sys2Proof/Laws/Requests.lean ====
section
/-! SUPPORT. What the operations of Machine/RequestOps, CompletionOps and ClockOps can do, and the named
operations of the event files. -/

namespace Sys2Proof.Machine

set_option Elab.async false

variable {F : Foot} {s : State}

/-! ### Requests -/

/-- What taking a request and carrying one out after its claim check may change. -/
def handFoot : Foot :=
  { clock := true, written := true, zones := true, targets := true, store := true, arbiter := true, bus := true,
    demand := true, contacts := true, report := true, valves := true, firing := true, ports := true }

theorem replyOk_within {p : Port} {b : List Byte} : Within deliverFoot s (replyOk p b s) := deliver_within

theorem replyRange_within {p : Port} : Within deliverFoot s (replyRange p s) := deliver_within

theorem takeReadZone_within {p : Port} {b : Byte} : Within deliverFoot s (takeReadZone p b s) := by
  unfold takeReadZone; split <;> exact deliver_within

theorem takeUnitRead_within {p : Port} {b : Byte} : Within deliverFoot s (takeUnitRead p b s) := by
  unfold takeUnitRead; split <;> exact deliver_within

theorem takeValveRead_within {p : Port} {b : Byte} : Within deliverFoot s (takeValveRead p b s) := by
  unfold takeValveRead; split <;> exact deliver_within

theorem takeValveClear_within {p : Port} {b : Byte} : Within handFoot s (takeValveClear p b s) := by
  unfold takeValveClear
  split
  · exact .ite (fun _ => deliver_within.after (enterUncalibrated_within.after (.mono (modChannel_within _ _))))
      fun _ => deliver_within.mono
  · exact deliver_within.mono

theorem takeClearLockout_within {p : Port} : Within handFoot s (takeClearLockout p s) := by
  unfold takeClearLockout
  dsimp only
  refine .ite (fun _ => ?_) fun _ => deliver_within.mono
  exact .ite (fun _ => deliver_within.after (.mono (modFiring_within _))) fun _ => deliver_within.mono

theorem length_purged (p : PortState) : p.purged.length ≤ p.notices.length := by
  unfold PortState.purged
  dsimp only
  split
  · rw [List.length_append]
    have h1 := List.length_filter_le (fun n : Notice => p.mask[n.kind.number]) (p.notices.drop 1)
    have h2 := congrArg List.length (List.take_append_drop 1 p.notices)
    rw [List.length_append] at h2
    omega
  · exact List.length_filter_le _ _

theorem takeNoticeMask_within {p : Port} {l : List MaskEntry} {b : Byte} :
    Within deliverFoot s (takeNoticeMask p l b s) := by
  unfold takeNoticeMask
  split
  · refine .ite (fun _ => ?_) fun _ => deliver_within
    dsimp only
    split
    · exact deliver_within.after (Within.after
        (modPort_within p fun ps h => Nat.le_trans (length_purged ps) h)
        (.mono (modPort_within_notices p fun _ => rfl)))
    · exact deliver_within.after (.mono (modPort_within_notices p fun _ => rfl))
  · exact deliver_within

theorem takeFaultRead_within {p : Port} {b : Byte} : Within deliverFoot s (takeFaultRead p b s) := by
  unfold takeFaultRead
  split
  · dsimp only
    split
    · exact deliver_within.after (.mono (modPort_within_notices p fun _ => rfl))
    · exact deliver_within
  · exact deliver_within

theorem placeCheck_within {p : Port} {r : HostReq} {c : ClaimIx} : Within grantFoot s (placeCheck p r c s) :=
  place_within

theorem takeValveService_within {p : Port} {b : Byte} {r : HostReq} : Within handFoot s (takeValveService p b r s) := by
  unfold takeValveService
  split
  · exact placeCheck_within.mono
  · exact deliver_within.mono

theorem handOver_within {p : Port} {r : HostReq} : Within handFoot s (handOver p r s) := by
  cases r
  case identify => exact replyOk_within.mono
  case readZone => exact takeReadZone_within.mono
  case readTime => exact replyOk_within.mono
  case readConfig => exact replyOk_within.mono
  case unitRead => exact takeUnitRead_within.mono
  case valveClear => exact takeValveClear_within
  case valveRead => exact takeValveRead_within.mono
  case firingRead => exact replyOk_within.mono
  case clearLockout => exact takeClearLockout_within
  case noticeMask => exact takeNoticeMask_within.mono
  case faultRead => exact takeFaultRead_within.mono
  case unitAdmit => exact placeCheck_within.mono
  case unitRemove => exact placeCheck_within.mono
  case valveAssign => exact placeCheck_within.mono
  case valveService => exact takeValveService_within
  all_goals exact place_within.mono

theorem dropBusy_within {p : Port} {k : Option Byte} : Within portsFoot s (dropBusy p k s) :=
  modPort_within_notices p fun _ => notices_recordRefusal _ _ _ _ _

theorem takeReset_within {p : Port} : Within handFoot s (takeReset p s) := by
  unfold takeReset
  split
  · exact .mono (modPort_within_notices p fun _ => rfl)
  · exact handOver_within.after (.mono (modPort_within_notices p fun _ => rfl))

theorem seen_within {p : Port} : Within portsFoot s (seen p s) := modPort_within_notices _ fun _ => rfl

theorem takeRequest_within {p : Port} {r : HostReq} : Within handFoot s (takeRequest p r s) := by
  unfold takeRequest
  dsimp only
  split
  · exact handOver_within.after (Within.after (modPort_within_notices p fun _ => rfl) seen_within.mono)
  · exact .ite (fun _ => takeReset_within.after seen_within.mono) fun _ => dropBusy_within.after seen_within.mono

theorem refuseFrame_within {p : Port} {k : Option Byte} {st : Status} : Within portsFoot s (refuseFrame p k st s) := by
  unfold refuseFrame
  split
  · exact modPort_within_notices p fun _ => notices_placeReply _ _ _ _
  · exact dropBusy_within

theorem takeVerdict_within {p : Port} {v : FrameVerdict} : Within handFoot s (takeVerdict p v s) := by
  unfold takeVerdict
  split
  · exact takeRequest_within
  · exact refuseFrame_within.mono
  · exact refuseFrame_within.after seen_within.mono

theorem raiseStoreOrder_within {r : StoreReq} : Within grantFoot s (raiseStoreOrder r s) := by
  unfold raiseStoreOrder
  split
  · exact place_within
  · refine .mono (F := { report := true }) ?_
    apply report_within
    · exact Nat.le_refl _
    · rfl

theorem finishCheck_within {p : Port} {c : ClaimIx} {st : Status} {b : List Byte} :
    Within deliverFoot s (finishCheck p c st b s) :=
  restartClaim_within.after deliver_within

theorem admitUnit_within {u : UnitIx} {r : UnitRecord} {z : Zone} {k : Role} : Within handFoot s (admitUnit u r z k s) :=
  Within.after (forEach_within fun _ _ => recompute_within) (queueReply_within.after (.mono (setUnit_within _ _)))

theorem carryUnitAdmit_within {p : Port} {i z r : Byte} {c : ClaimIx} :
    Within handFoot s (carryUnitAdmit p i z r c s) := by
  unfold carryUnitAdmit
  split
  · split
    · exact finishCheck_within.after admitUnit_within
    · exact finishCheck_within.mono
  · exact finishCheck_within.mono

theorem removeUnit_within {p : Port} {u : UnitIx} {r : UnitRecord} : Within handFoot s (removeUnit p u r s) :=
  raiseStoreOrder_within.after (Within.after (forEach_within fun _ _ => recompute_within)
    (Within.after (forEach_within fun z _ => modZone_within z (fun _ => rfl) fun _ => rfl)
      (.mono (setUnit_within _ _))))

theorem carryUnitRemove_within {p : Port} {i : Byte} {c : ClaimIx} : Within handFoot s (carryUnitRemove p i c s) := by
  unfold carryUnitRemove
  split
  · split
    · exact removeUnit_within
    · exact finishCheck_within.mono
  · exact finishCheck_within.mono

theorem carryValveAssign_within {p : Port} {ch z : Byte} {f : Half} {a b : Byte} {c : ClaimIx} :
    Within handFoot s (carryValveAssign p ch z f a b c s) := by
  unfold carryValveAssign
  split
  · dsimp only
    refine .ite (fun _ => finishCheck_within.mono) fun _ => .ite (fun _ => finishCheck_within.mono) fun _ => ?_
    exact finishCheck_within.after assign_within.mono
  · exact finishCheck_within.mono

theorem carryValveService_within {p : Port} {ch : Byte} {l : List ServiceEntry} {c : ClaimIx} :
    Within handFoot s (carryValveService p ch l c s) := by
  unfold carryValveService
  split
  · refine .ite (fun _ => finishCheck_within.mono) fun _ => .ite (fun _ => finishCheck_within.mono) fun _ => ?_
    split
    · exact finishCheck_within.mono
    · dsimp only
      refine .ite (fun _ => finishCheck_within.mono) fun _ => .ite (fun _ => finishCheck_within.mono) fun _ => ?_
      exact finishCheck_within.after appendEntries_within.mono
  · exact finishCheck_within.mono

theorem carryChecked_within {p : Port} {r : HostReq} {c : ClaimIx} : Within handFoot s (carryChecked p r c s) := by
  cases r
  case unitAdmit => exact carryUnitAdmit_within
  case unitRemove => exact carryUnitRemove_within
  case valveAssign => exact carryValveAssign_within
  case valveService => exact carryValveService_within
  all_goals exact .refl

/-! ### Completions -/

def completeFoot : Foot := { handFoot with taken := true }

theorem demandTakeUp_within {o : Params} : Within { demand := true } s (demandTakeUp o s) := by
  unfold demandTakeUp
  dsimp only
  split
  · split
    · exact .refl
    · apply demand_within; rfl
  · split
    · apply demand_within; rfl
    · exact Within.after (demand_within (s := { s with demand := { s.demand with loopStart := s.clock.ticks } }) rfl)
        (demand_within rfl)

theorem valveTakeUp_within {o : Params} : Within valveFoot s (valveTakeUp o s) := by
  unfold valveTakeUp
  exact .ite (fun _ => .refl) fun _ => Within.after (forEach_within fun _ _ => writeFlowReady_within)
    (.mono (forEach_within fun _ _ => judgeOpenOnly_within))

theorem firingTakeUp_within {o : Params} : Within firingFoot s (firingTakeUp o s) := by
  unfold firingTakeUp
  dsimp only
  refine .ite (fun _ => ?_) fun _ => judgeMinOff_within.after ?_
  all_goals exact .ite (fun _ => .refl) fun _ => testPermitted_within

theorem reportTakeUp_within {o : Params} : Within receiveFoot s (reportTakeUp o s) := by
  unfold reportTakeUp
  exact .ite (fun _ => .refl) fun _ => judgeHoldOff_within

theorem contactTakeUp_within {o : Params} : Within grantFoot s (contactTakeUp o s) :=
  forEach_within fun _ _ => applySettings_within

theorem takeUpConfig_within : Within completeFoot s (takeUpConfig s) := by
  unfold takeUpConfig
  exact contactTakeUp_within.after (reportTakeUp_within.after (firingTakeUp_within.after (valveTakeUp_within.after
    (demandTakeUp_within.after (.mono (taken_within _))))))

def outcomeFoot : Foot := { bus := true, report := true, ports := true }

theorem boostOutcome_within {r : Reason} : Within outcomeFoot s (boostOutcome r s) := by
  unfold boostOutcome
  split
  · exact removeHead_within.after queueReply_within.mono
  · exact .refl

theorem hostDone_within {p : Port} {r : HostReq} {st : Status} {b : List Byte} {u : Option ClaimIx} :
    Within completeFoot s (hostDone p r st b u s) := by
  have h : ∀ u : Option ClaimIx, Within completeFoot s (match u with
      | some c => restartClaim p c (deliver p st b s)
      | none => deliver p st b s) := by
    intro u
    cases u
    · exact deliver_within.mono
    · exact restartClaim_within.after deliver_within.mono
  cases r
  case configure => exact .ite (fun _ => takeUpConfig_within.after (h u)) fun _ => h u
  all_goals exact h u

theorem handBack_within {c : Carried} : Within completeFoot s (handBack c s) := by
  unfold handBack
  split
  · exact hostDone_within
  · exact carryChecked_within.mono
  · exact deliver_within.mono
  · exact .mono (modPort_within _ fun _ _ => Nat.zero_le _)
  · exact boostOutcome_within.mono
  · exact removeHead_within.mono
  · exact finishCheck_within.mono
  · exact .refl

theorem complete_within {c : Carried} : Within completeFoot s (complete c s) := by
  unfold complete
  exact grantNext_within.after (Within.after (arbiter_within (s := handBack c s) _) handBack_within)

theorem completeStore_within : Within completeFoot s (completeStore s) := by
  unfold completeStore
  split
  · exact complete_within
  · exact .refl

/-! ### The Clock -/

theorem lapseClaim_within {c : ClaimIx} : Within { store := true, ports := true } s (lapseClaim c s) := by
  unfold lapseClaim
  split
  · refine .ite (fun _ => .refl) fun _ => .ite (fun _ => ?_) fun _ => .mono (setClaim_within _ _)
    exact raiseTo_within.after (.mono (setClaim_within _ _))
  · exact .refl

theorem requestEvaluation_within : Within grantFoot s (requestEvaluation s) := by
  unfold requestEvaluation
  split
  · exact setWaiting_within.mono
  · exact place_within

theorem exercise_within : Within valveFoot s (exercise s) := by
  unfold exercise
  exact .ite (fun _ => forEach_within fun _ _ => .ite (fun _ => appendEntries_within) fun _ => .refl) fun _ => .refl

theorem midnight_within : Within { firing := true } s (midnight s) := by
  unfold midnight
  exact .ite (fun _ => modFiring_within _) fun _ => .refl

theorem takeMinute_within : Within handFoot s (takeMinute s) :=
  midnight_within.after (exercise_within.after requestEvaluation_within.mono)

theorem takeSecond_within : Within handFoot s (takeSecond s) := by
  have h : Within handFoot s
      (forEach allUnits ageUnit (forEach allClaims lapseClaim { s with clock := s.clock.tickSecond })) :=
    Within.after (forEach_within fun _ _ => ageUnit_within) (Within.after (forEach_within fun _ _ => lapseClaim_within)
      (.mono (clock_within _)))
  unfold takeSecond
  exact .ite (fun _ => takeMinute_within.after h) fun _ => h

theorem secondAt_within : Within handFoot s (secondAt s) := takeSecond_within.after (runTo_within _).mono

theorem idle_within : Within { clock := true, bus := true } s (idle s) := runTo_within _

end Sys2Proof.Machine
end

