-- ==== Sys2Proof/Laws/Events.lean ====
section
/-! SUPPORT. What the named operations of the event files can do. -/

namespace Sys2Proof.Machine

set_option Elab.async false

variable {F : Foot} {s : State}

/-! ### The Demand Unit and the Contact Monitor -/

def timedEvalFoot : Foot := { evalFoot with clock := true, bus := true }

theorem loopAt_within : Within timedEvalFoot s (loopAt s) := by
  unfold loopAt
  dsimp only
  refine evaluation_within.after (Within.after (G := { demand := true }) ?_ (runTo_within s.loopDue).mono)
  apply demand_within
  rfl

theorem zoneEventOf_within {z : Zone} : Within evalFoot s (zoneEventOf z s) := by
  unfold zoneEventOf
  refine evaluation_within.after (.mono (F := { demand := true }) ?_)
  apply demand_within
  rfl

theorem recomputeServed_within : Within valveFoot s (recomputeServed s) := by
  unfold recomputeServed
  refine finishEvaluation_within.after (.mono (F := { demand := true }) ?_)
  apply demand_within
  rfl

theorem sampleAt_within {v : BitVec 16} : Within grantFoot s (sampleAt v s) :=
  sample_within.after (runTo_within _).mono

/-! ### The room bus -/

def lineFoot : Foot := { bus := true, report := true, ports := true }

/-- A frame on the line that holds no reservation. -/
theorem setRx_within {rx : Option RxFrame} (h : (rx.any fun f => f.mode == .reserved) = false) :
    Within { bus := true } s (s.setRx rx) := by
  have kb : s.busSound → (s.setRx rx).busSound := fun k => ⟨k.1, k.2.1, fun e => by
    have e' : (rx.any fun f => f.mode == .reserved) = true := e
    rw [h] at e'
    cases e'⟩
  constructor
  case keepsBus => exact kb
  all_goals (intros; first | rfl | assumption | contradiction)

theorem beginFrame_within : Within { bus := true } s (beginFrame s) :=
  (setRx_within rfl).after setLine_within

theorem destEnded_within {d : Byte} : Within lineFoot s (destEnded d s) := by
  unfold destEnded
  dsimp only
  refine .ite (fun _ => ?_) fun _ => setAck_within.after (.mono (setRx_within rfl))
  refine .ite (fun h => ?_) fun _ => setAck_within.after (.mono (setRx_within rfl))
  exact judgeHoldOff_within.after (setAck_within.after (.mono (slots_within (fun _ => h) fun _ => rfl)))

/-- The frame on the line goes on with one byte more. -/
theorem setRx_within_same {f : RxFrame} {l : List Byte} (hf : s.bus.rx = some f) :
    Within { bus := true } s (s.setRx (some { f with bytes := l })) := by
  have kb : s.busSound → (s.setRx (some { f with bytes := l })).busSound := fun k => ⟨k.1, k.2.1, fun e => by
    refine k.2.2 ?_
    rw [hf]
    exact e⟩
  constructor
  case keepsBus => exact kb
  all_goals (intros; first | rfl | assumption | contradiction)

theorem reservedByte_within {f : RxFrame} {b : Byte} (hf : s.bus.rx = some f) :
    Within lineFoot s (reservedByte f b s) := by
  unfold reservedByte
  dsimp only
  split
  · exact setAck_within.after (.mono (setRx_within_same hf))
  · exact rewind_within.after (setAck_within.after (.mono (setRx_within_same hf)))
  · exact .refl

theorem foreignByte_within {f : RxFrame} {b : Byte} (hf : s.bus.rx = some f) :
    Within lineFoot s (foreignByte f b s) := by
  unfold foreignByte
  dsimp only
  split
  · exact setAck_within.after (.mono (setRx_within_same hf))
  · exact setAck_within.after (.mono (setRx_within_same hf))

/-- The reserved slot filled: the count stays as it was. -/
theorem admitFrame_within {f : RxFrame} {r : FrameRecord} (hf : s.bus.rx = some f) (hm : f.mode = .reserved) :
    Within lineFoot s (admitFrame f r s) := by
  have kb : s.busSound → (admitFrame f r s).busSound := by
    intro k
    have hv : s.report.reserved = true := k.2.2 (by rw [hf]; simp [hm])
    have hc := k.2.1
    unfold State.receiveCount at hc
    rw [hv] at hc
    refine ⟨k.1, ?_, fun e => ?_⟩
    · show (s.report.queue ++ [r]).length + (if false = true then 1 else 0) ≤ _
      simp only [List.length_append, List.length_singleton, Bool.false_eq_true, if_false, if_true] at hc ⊢
      omega
    · have e' : (some { f with mode := RxMode.admitted }).any (fun f => f.mode == .reserved) = true := e
      cases e'
  constructor
  case keepsBus => exact kb
  all_goals (intros; first | rfl | assumption | contradiction)

theorem crcByteReceived_within {f : RxFrame} {b : Byte} (hf : s.bus.rx = some f) (hm : f.mode = .reserved) :
    Within lineFoot s (crcByteReceived f b s) := by
  unfold crcByteReceived
  split
  · exact .ite (fun _ => admitFrame_within hf hm) fun _ => rewind_within.after setAck_within.mono
  · exact .refl

theorem afterEnd_within {b : Bool} : Within { bus := true } s (afterEnd b s) := by
  unfold afterEnd
  exact .ite (fun _ => beginFrame_within) fun _ => enterGap_within

theorem countError_within : Within { bus := true } s (countError s) := bus_within_rest rfl rfl

theorem raiseBusError_within {b : Byte} {l : List Byte} : Within portsFoot s (raiseBusError b l s) := raise_within

theorem failSender_within : Within busFoot s (failSender s) := by
  unfold failSender
  split
  · exact failAttempt_within
  · exact .refl

theorem busErrorSeen_within {b : Bool} {n : Nat} : Within lineFoot s (busErrorSeen b n s) :=
  afterEnd_within.after (failSender_within.after (rewind_within.after (raiseBusError_within.after
    countError_within.mono)))

theorem becomeStuck_within {h : HeldWire} : Within lineFoot s (becomeStuck h s) := by
  unfold becomeStuck
  dsimp only
  refine raiseBusError_within.after (countError_within.after (Within.after (setRx_within rfl)
    (failSender_within.after (rewind_within.after (.mono (F := { bus := true }) ?_)))))
  apply bus_within_rest <;> rfl

def timedBusFoot : Foot := { clock := true, bus := true }

theorem beginAttempt_within {c : Source} : Within { bus := true } s (beginAttempt c s) := bus_within id (.inr rfl)

theorem followWinner_within {a : Attempt} {d : Byte} {n : Nat} : Within lineFoot s (followWinner a d n s) := by
  unfold followWinner
  split
  · exact .mono (setRx_within rfl)
  · exact destEnded_within
  · exact setAck_within.after (.mono (setRx_within rfl))

theorem loseArbitration_within {a : Attempt} {n : Nat} : Within lineFoot s (loseArbitration a n s) := by
  have h : Within lineFoot s (endAttempt a.source s) := endAttempt_within.mono
  unfold loseArbitration
  refine refreshReady_within.after (followWinner_within.after ?_)
  exact .ite (fun _ => applyPendingControl_within.after h) fun _ => h

theorem frameSent_within {c : Source} : Within { bus := true } s (frameSent c s) := by
  unfold frameSent
  cases c
  · refine applyPendingControl_within.after ?_
    apply bus_within_rest <;> rfl
  · exact newHead_within.after (setOutbound_within fun h => by simp; omega)

theorem succeed_within {a : Attempt} : Within { bus := true } s (succeed a s) := by
  unfold succeed
  exact refreshReady_within.after (frameSent_within.after (enterGap_within.after endAttempt_within))

/-! ### The records of the receive queue -/

theorem implausible_within {u : UnitIx} {r : UnitRecord} {z : Zone} {t : Int} :
    Within ageFoot s (implausible u r z t s) := by
  unfold implausible
  dsimp only
  exact .ite (fun _ => recompute_within.after (raise_within.after (.mono (setUnit_within _ _)))) fun _ =>
    raise_within.after (.mono (setUnit_within _ _))

theorem plausible_within {u : UnitIx} {r : UnitRecord} {z : Zone} {t : Int} {h : Option Byte} {n : Nat} :
    Within ageFoot s (plausible u r z t h n s) :=
  recompute_within.after (.mono (setUnit_within _ _))

theorem judgeTemp_within {b : Byte} {t : Int} {h : Option Byte} {n : Nat} : Within ageFoot s (judgeTemp b t h n s) := by
  unfold judgeTemp
  split
  · exact .ite (fun _ => implausible_within) fun _ => plausible_within
  · exact .refl

theorem joinNew_within {a u : Byte} {n : BitVec 32} : Within lineFoot s (joinNew a u n s) := by
  unfold joinNew
  split
  · exact queueReply_within.after (raise_within.after (.mono (setUnit_within _ _)))
  · exact raise_within.mono

theorem joinKnown_within {u : UnitIx} {r : UnitRecord} {a : Byte} {n : BitVec 32} :
    Within busFoot s (joinKnown u r a n s) := by
  unfold joinKnown
  exact .ite (fun _ => queueReply_within) fun _ => raise_within.mono

theorem judgeJoin_within {a u : Byte} {n : BitVec 32} : Within lineFoot s (judgeJoin a u n s) := by
  unfold judgeJoin
  split
  · split
    · exact joinKnown_within.mono
    · exact .refl
  · exact joinNew_within

theorem raiseForHead_within {r : StoreReq} : Within grantFoot s (raiseForHead r s) := by
  unfold raiseForHead
  refine raiseStoreOrder_within.after (.mono (F := { report := true }) ?_)
  apply report_within
  · exact Nat.le_refl _
  · rfl

theorem judgeBoost_within {a d : Byte} {m : Half} : Within grantFoot s (judgeBoost a d m s) := by
  unfold judgeBoost
  split
  · exact raiseForHead_within
  · exact removeHead_within.after queueReply_within.mono

theorem judgeBoostCancel_within {a : Byte} : Within grantFoot s (judgeBoostCancel a s) := by
  unfold judgeBoostCancel
  split
  · exact raiseForHead_within
  · exact removeHead_within.mono

/-! ### Valves -/

theorem seekTimedOut_within {c : Channel} : Within valveFoot s (seekTimedOut c s) :=
  endMovement_within.after raise_within.mono

theorem dwellOver_within {c : Channel} : Within valveFoot s (dwellOver c s) :=
  takeUp_within.after (.mono (modChannel_within _ _))

theorem stallOfMove_within {c : Channel} {m : Movement} {n : Nat} : Within valveFoot s (stallOfMove c m n s) := by
  unfold stallOfMove
  split
  · exact .ite (fun _ => endMovement_within) fun _ => jam_within
  · exact .ite (fun _ => endMovement_within) fun _ => jam_within

theorem stallOf_within {c : Channel} : Within valveFoot s (stallOf c s) := by
  unfold stallOf
  split
  · refine .ite (fun _ => .refl) fun _ => ?_
    split
    · exact endMovement_within
    · exact stallOfMove_within
  · exact .refl

/-! ### Burner -/

def linkFoot : Foot := { firing := true, link := true, ports := true }

def statusFoot : Foot := { linkFoot with valves := true, demand := true, zones := true }

theorem startExchange_within : Within linkFoot s (startExchange s) := by
  unfold startExchange
  exact Within.after (modLink_within _) (.mono (modFiring_within _))

theorem afterQuiet_within : Within { clock := true, bus := true, link := true } s (afterQuiet s) := by
  unfold afterQuiet
  split
  · exact (modLink_within _).after (runTo_within _).mono
  · exact .refl

theorem keepStatus_within {b : BoilerStatus} : Within linkFoot s (keepStatus b s) := .mono (modLink_within _)

theorem recoverLink_within {b : BoilerStatus} : Within linkFoot s (recoverLink b s) := by
  unfold recoverLink
  dsimp only
  refine .ite (fun _ => .mono (modLink_within _)) fun _ => ?_
  exact .ite (fun _ => enterAnticycle_within.after (raise_within.after (.mono (modLink_within _)))) fun _ =>
    raise_within.after (.mono (modLink_within _))

theorem judgeLockout_within {b : BoilerStatus} : Within firingFoot s (judgeLockout b s) := by
  unfold judgeLockout
  split
  · exact .refl
  · exact enterLockout_within
  · exact enterAnticycle_within.after (.mono (modFiring_within _))
  · exact .refl

theorem dumpTest_within {v : Vector Bool 16} : Within firingFoot s (dumpTest v s) := by
  unfold dumpTest
  split
  · exact enterRunout_within
  · exact enterRunout_within
  · exact .refl

theorem startDump_within {n : Nat} : Within valveFoot s (startDump n s) :=
  dumpTest_within.after (raise_within.after (Within.after (forEach_within fun _ _ => placeUrgent_within)
    (.mono (modFiring_within _))))

theorem endDump_within {n : Nat} : Within firingFoot s (endDump n s) :=
  testPermitted_within.after (raise_within.after (.mono (modFiring_within _)))

theorem judgeFlow_within {b : BoilerStatus} : Within valveFoot s (judgeFlow b s) := by
  unfold judgeFlow
  refine .ite (fun _ => ?_) fun _ => .ite (fun _ => startDump_within) fun _ => .refl
  exact .ite (fun _ => endDump_within.mono) fun _ => .refl

theorem judgeFlame_within {b : BoilerStatus} : Within firingFoot s (judgeFlame b s) := by
  unfold judgeFlame
  split
  · exact changeFiring_within
  · exact changeFiring_within
  · exact .refl

theorem takeStatus_within {b : BoilerStatus} : Within statusFoot s (takeStatus b s) :=
  judgeFlame_within.after (judgeFlow_within.after (judgeLockout_within.after (recoverLink_within.after
    keepStatus_within.mono)))

theorem setLinkRx_within (rx : LinkRx) : Within linkFoot s (s.setLinkRx rx) := .mono (modLink_within _)

theorem judgeComplete_within {f : StatusBytes} : Within statusFoot s (judgeComplete f s) := by
  unfold judgeComplete
  split
  · exact takeStatus_within
  · exact .mono (setLinkRx_within _)

theorem frameByte_within {l : List Byte} {b : LinkByte} : Within statusFoot s (frameByte l b s) := by
  unfold frameByte
  refine .ite (fun _ => .mono (setLinkRx_within _)) fun _ => ?_
  split
  · exact judgeComplete_within
  · exact .mono (setLinkRx_within _)

theorem linkByte_within {b : LinkByte} : Within statusFoot s (linkByte b s) := by
  unfold linkByte
  refine .ite (fun _ => ?_) fun _ => .refl
  split
  · exact .mono (setLinkRx_within _)
  · exact frameByte_within
  · exact frameByte_within

theorem windowOpen_setLinkRx (rx : LinkRx) (s : State) : (s.setLinkRx rx).windowOpen = s.windowOpen := rfl

theorem setLinkRx_setLinkRx (x y : LinkRx) (s : State) : (s.setLinkRx x).setLinkRx y = s.setLinkRx y := rfl

theorem judgeComplete_setLinkRx (f : StatusBytes) (rx : LinkRx) (s : State) :
    judgeComplete f (s.setLinkRx rx) = judgeComplete f s := by
  unfold judgeComplete
  cases goodStatus? f <;> rfl

/-- A byte that comes at once after the ones before it. -/
theorem linkByte_next (bytes : List Byte) (b : Byte) (s : State) (open' : s.windowOpen = true) :
    linkByte (linkByteOf b) (s.setLinkRx (.frame bytes s.clock.ticks)) =
      if frameAtFault (bytes ++ [b]) then s.setLinkRx (.discarding s.clock.ticks)
      else match completeFrame? (bytes ++ [b]) with
        | some f => judgeComplete f s
        | none => s.setLinkRx (.frame (bytes ++ [b]) s.clock.ticks) := by
  have now : LinkRx.at s.clock.ticks (.frame bytes s.clock.ticks) = .frame bytes s.clock.ticks := by
    simp [LinkRx.at, LinkRx.gapEnd, afterMs, Config.hz]
  simp only [linkByte, windowOpen_setLinkRx, open', clock_setLinkRx, link_setLinkRx, now, if_true, frameByte,
    linkValue_linkByteOf, stopLow_linkByteOf, setLinkRx_setLinkRx, Bool.false_or, judgeComplete_setLinkRx] <;>
  cases completeFrame? (bytes ++ [b]) <;> rfl

/-- A whole STATUS frame that comes byte by byte without a gap is judged as the frame it is (R161, R202). -/
theorem linkByte_wholeFrame (f : StatusBytes) (s : State) (quiet : s.link.rx = .quiet) (open' : s.windowOpen = true) :
    (StatusBytes.bytes f).foldl (fun s b => linkByte (linkByteOf b) s) s = judgeComplete f s := by
  have first : linkByte (linkByteOf 0x02) s = s.setLinkRx (.frame [0x02] s.clock.ticks) := by
    simp [linkByte, open', quiet, LinkRx.at, LinkRx.gapEnd, frameByte, frameAtFault, completeFrame?]
  have keeps : ∀ (bytes : List Byte) (b : Byte), frameAtFault (bytes ++ [b]) = false →
      completeFrame? (bytes ++ [b]) = none →
      linkByte (linkByteOf b) (s.setLinkRx (.frame bytes s.clock.ticks)) =
        s.setLinkRx (.frame (bytes ++ [b]) s.clock.ticks) := fun bytes b good more => by
    simp [linkByte_next _ _ _ open', good, more]
  simp only [StatusBytes.bytes, List.foldl, first]
  iterate 6 rw [keeps _ _ rfl rfl]
  exact linkByte_next _ _ _ open'

theorem takeMiss_within : Within linkFoot s (takeMiss s) := by
  unfold takeMiss
  dsimp only
  refine .ite (fun _ => ?_) fun _ => .mono (modLink_within _)
  exact enterLinkDown_within.after (raise_within.after ((modLink_within _).after (.mono (modLink_within _))))

/-! ### What the part makes on the room bus -/

theorem sentOnLine_sync (h : s.bus.syncing = true) : s.sentOnLine = onLine syncBytes := if_pos h

theorem sentOnLine_attempt {a : Attempt} (h : s.bus.syncing = false) (ha : s.bus.attempt = some a) :
    s.sentOnLine = onLine (s.sentBytes a) := by
  simp [State.sentOnLine, h, ha]

theorem sentOnLine_none (h : s.bus.syncing = false) (ha : s.bus.attempt = none) : s.sentOnLine = [] := by
  simp [State.sentOnLine, h, ha]

/-! ### The ports -/

theorem length_endFetch (b : Bool) (p : PortState) : (p.endFetch b).notices.length ≤ p.notices.length := by
  unfold PortState.endFetch
  split
  · exact Nat.le_refl _
  · dsimp only
    split
    · exact Nat.le_refl _
    · split
      · unfold PortState.takeItem
        split
        · split <;> exact Nat.le_refl _
        · simp
        · exact Nat.le_refl _
      · exact Nat.le_refl _

/-- Outside a FETCH a port's data output is released, and once its item is gone a FETCH sends fill bytes (R184,
R199). -/
theorem dataOut_none (p : PortState) (n : Nat) (idle : p.fetch = none) : p.dataOut n = none := by
  simp [PortState.dataOut, idle]

theorem byteOut_gone (f : FetchInProgress) (n : Nat) (gone : f.gone = true) : f.byteOut n = fillByte := by
  simp [FetchInProgress.byteOut, gone]

theorem notices_startFetch (p : PortState) : p.startFetch.notices = p.notices := by
  unfold PortState.startFetch
  split <;> rfl

end Sys2Proof.Machine
end

