-- ==== Sys2Proof/Laws/Arms.lean ====
section
/-! SUPPORT. A good request of an idle port step by step: one equation for each arm of handOver, storeHost and
carryOut (their catch-all arms make unfolding slow), the taking of the frame, the grant of a request placed at an idle
arbiter, what a request places there, and the encodings that Safety says once more. -/

namespace Sys2Proof.Machine

set_option Elab.async false

variable {s : State} {p : Port}

/-! ### handOver, arm by arm -/

theorem handOver_identify : handOver p .identify s = replyOk p (identifyBody p s) s := rfl
theorem handOver_readZone (b : Byte) : handOver p (.readZone b) s = takeReadZone p b s := rfl
theorem handOver_readTime : handOver p .readTime s = replyOk p (timeBody s) s := rfl
theorem handOver_readConfig : handOver p .readConfig s = replyOk p (configBody s) s := rfl
theorem handOver_unitRead (b : Byte) : handOver p (.unitRead b) s = takeUnitRead p b s := rfl
theorem handOver_valveClear (b : Byte) : handOver p (.valveClear b) s = takeValveClear p b s := rfl
theorem handOver_valveRead (b : Byte) : handOver p (.valveRead b) s = takeValveRead p b s := rfl
theorem handOver_firingRead : handOver p .firingRead s = replyOk p (firingBody s) s := rfl
theorem handOver_clearLockout : handOver p .clearLockout s = takeClearLockout p s := rfl
theorem handOver_noticeMask (l : List MaskEntry) (b : Byte) :
    handOver p (.noticeMask l b) s = takeNoticeMask p l b s := rfl
theorem handOver_faultRead (b : Byte) : handOver p (.faultRead b) s = takeFaultRead p b s := rfl
theorem handOver_unitAdmit (i z r : Byte) :
    handOver p (.unitAdmit i z r) s = placeCheck p (.unitAdmit i z r) configClaim s := rfl
theorem handOver_unitRemove (i : Byte) : handOver p (.unitRemove i) s = placeCheck p (.unitRemove i) configClaim s := rfl
theorem handOver_valveAssign (c z : Byte) (f : Half) (lo hi : Byte) :
    handOver p (.valveAssign c z f lo hi) s = placeCheck p (.valveAssign c z f lo hi) configClaim s := rfl
theorem handOver_valveService (c : Byte) (l : List ServiceEntry) :
    handOver p (.valveService c l) s = takeValveService p c (.valveService c l) s := rfl
theorem handOver_portReset : handOver p .portReset s = place p.requester (.resetStep p) s := rfl
theorem handOver_setZone (z m : Byte) (t : Half) (u : Byte) :
    handOver p (.setZone z m t u) s = place p.requester (.host p (.setZone z m t u)) s := rfl
theorem handOver_scheduleInsert (z : Byte) (m : Half) (k : Byte) (t : Half) :
    handOver p (.scheduleInsert z m k t) s = place p.requester (.host p (.scheduleInsert z m k t)) s := rfl
theorem handOver_scheduleDelete (z : Byte) (m : Half) :
    handOver p (.scheduleDelete z m) s = place p.requester (.host p (.scheduleDelete z m)) s := rfl
theorem handOver_scheduleLoad (z : Byte) (l : List (BitVec 24)) :
    handOver p (.scheduleLoad z l) s = place p.requester (.host p (.scheduleLoad z l)) s := rfl
theorem handOver_scheduleRead (z b : Byte) :
    handOver p (.scheduleRead z b) s = place p.requester (.host p (.scheduleRead z b)) s := rfl
theorem handOver_claim (b : Byte) : handOver p (.claim b) s = place p.requester (.host p (.claim b)) s := rfl
theorem handOver_release (b : Byte) : handOver p (.release b) s = place p.requester (.host p (.release b)) s := rfl
theorem handOver_pushHold (z : Byte) (t : Half) (l e : Byte) (m : Half) :
    handOver p (.pushHold z t l e m) s = place p.requester (.host p (.pushHold z t l e m)) s := rfl
theorem handOver_cancelHold (z : Byte) :
    handOver p (.cancelHold z) s = place p.requester (.host p (.cancelHold z)) s := rfl
theorem handOver_cancelBoost (z : Byte) :
    handOver p (.cancelBoost z) s = place p.requester (.host p (.cancelBoost z)) s := rfl
theorem handOver_setTime (m : Half) (n : Byte) :
    handOver p (.setTime m n) s = place p.requester (.host p (.setTime m n)) s := rfl
theorem handOver_releaseTime : handOver p .releaseTime s = place p.requester (.host p .releaseTime) s := rfl
theorem handOver_configure (l : List ConfigItem) :
    handOver p (.configure l) s = place p.requester (.host p (.configure l)) s := rfl

/-! ### What a grant carries out, arm by arm -/

theorem carryOut_setZone (z m : Byte) (t : Half) (u : Byte) :
    carryOut (.host p (.setZone z m t u)) s = storeSetZone p z m t u s := rfl
theorem carryOut_scheduleInsert (z : Byte) (m : Half) (k : Byte) (t : Half) :
    carryOut (.host p (.scheduleInsert z m k t)) s = storeInsert p z m k t s := rfl
theorem carryOut_scheduleDelete (z : Byte) (m : Half) :
    carryOut (.host p (.scheduleDelete z m)) s = storeDelete p z m s := rfl
theorem carryOut_scheduleLoad (z : Byte) (l : List (BitVec 24)) :
    carryOut (.host p (.scheduleLoad z l)) s = storeLoad p z l s := rfl
theorem carryOut_scheduleRead (z b : Byte) : carryOut (.host p (.scheduleRead z b)) s = storeRead z b s := rfl
theorem carryOut_claim (b : Byte) : carryOut (.host p (.claim b)) s = storeClaim p b s := rfl
theorem carryOut_release (b : Byte) : carryOut (.host p (.release b)) s = storeRelease p b s := rfl
theorem carryOut_pushHold (z : Byte) (t : Half) (l e : Byte) (m : Half) :
    carryOut (.host p (.pushHold z t l e m)) s = storePushHold p z t l e m s := rfl
theorem carryOut_cancelHold (z : Byte) : carryOut (.host p (.cancelHold z)) s = storeCancelHold z s := rfl
theorem carryOut_cancelBoost (z : Byte) : carryOut (.host p (.cancelBoost z)) s = storeCancelBoost z s := rfl
theorem carryOut_setTime (m : Half) (n : Byte) : carryOut (.host p (.setTime m n)) s = storeSetTime p m n s := rfl
theorem carryOut_releaseTime : carryOut (.host p .releaseTime) s = storeReleaseTime p s := rfl
theorem carryOut_configure (l : List ConfigItem) : carryOut (.host p (.configure l)) s = storeConfigure p l s := rfl
theorem carryOut_check (r : HostReq) (c : ClaimIx) :
    carryOut (.check p r c) s = (s, .checked (s.holds p c)) := rfl
theorem carryOut_resetStep : carryOut (.resetStep p) s = (freeAll p s, .done) := rfl

/-! ### Operands -/

theorem fin?_of_lt {n : Nat} (b : Byte) (z : Fin n) (h : b.toNat = z.val) : fin? n b = some z := by
  have hz := z.2
  simp only [fin?, h, hz, dif_pos]

theorem fin?_of_le {n : Nat} (b : Byte) (h : n ≤ b.toNat) : fin? n b = none := by
  simp only [fin?, Nat.not_lt.mpr h, dif_neg, not_false_iff]

theorem flag?_encFlag (b : Bool) : flag? (encFlag b) = some b := by cases b <;> rfl

theorem flag?_of_le (b : Byte) (h : 2 ≤ b.toNat) : flag? b = none := by
  have h0 : b ≠ 0 := by intro e; subst e; exact absurd h (by decide)
  have h1 : b ≠ 1 := by intro e; subst e; exact absurd h (by decide)
  unfold flag?; rw [if_neg h0, if_neg h1]

/-! ### Taking a frame -/

theorem port_modPort_of_other (f : PortState → PortState) : (s.modPort p.other f).port p = s.port p := by
  cases p <;> rfl

theorem recordRefusal_eq (k : Option Byte) (st : Status) (sub : Option Byte) (n : Nat) (ps : PortState) :
    ps.recordRefusal k st sub n = { ps with fault := faultAfter ps.fault k st sub n } := by
  cases ps with
  | mk _ _ _ _ _ _ _ _ f _ _ _ => cases f <;> rfl

theorem taking_eq_inFlight {r : HostReq} (hr : r ≠ .portReset) :
    (seen p s).modPort p (PortState.taking r) = s.inFlight p r := by
  have e : (r == HostReq.portReset) = false := by simpa using hr
  cases p <;> simp [seen, State.inFlight, State.modPort, Port.other, PortState.taking, e, PortState.judged]

/-- A good frame at an idle port is handed to its owner. -/
theorem takeRequest_idle {r : HostReq} (h : s.portIdle p) (hr : r ≠ .portReset) :
    takeRequest p r s = handOver p r (s.inFlight p r) := by
  have h1 := h.1
  unfold takeRequest
  simp only [seen, port_modPort_of_other, h1]
  rw [← taking_eq_inFlight hr]
  rfl

/-- The owner's reply at once, at a port whose request is taken. -/
theorem deliver_inFlight {r : HostReq} {st : Status} {body : List Byte} (h : s.portIdle p) :
    deliver p st body (s.inFlight p r) = s.afterReply p r st body := by
  obtain ⟨_, h2⟩ := h
  cases p
  all_goals
    simp only [State.port] at h2
    simp [deliver, State.port, State.modPort, Port.other, PortState.judged, State.inFlight, State.afterReply, h2,
      PortState.placeReply, PortState.attentionNeeded]
    by_cases hs : st = .ok <;> simp [hs, recordRefusal_eq, State.now]

theorem arbiterIdle_inFlight {r : HostReq} (h : s.arbiterIdle) : (s.inFlight p r).arbiterIdle := by
  cases p <;> exact h

/-! ### A grant at an idle arbiter (R72) -/

/-- The state in which a port's request is carried out: its requester parked, nothing waiting. -/
def atGrant (p : Port) (s : State) : State :=
  { s with arbiter := ⟨⟨none, none, none, none, none⟩, none, p.requester⟩ }

theorem freeze_setArbiter (q : StoreReq) (x : Arbiter) :
    freeze q { s with arbiter := x } = { freeze q s with arbiter := x } := by
  unfold freeze
  cases q.needs with
  | none => rfl
  | some pc =>
    simp only
    cases s.store.claims[pc.2] with
    | none => rfl
    | some h => simp only; split <;> rfl

/-- A port's request placed at an idle arbiter is granted and carried out at once. -/
theorem place_idle (q : StoreReq) (h : s.arbiterIdle) :
    place p.requester q s =
      { (carryOut q (atGrant p (freeze q s))).1 with
        arbiter :=
          { (carryOut q (atGrant p (freeze q s))).1.arbiter with
            carrying := some ⟨q, (carryOut q (atGrant p (freeze q s))).2⟩ } } := by
  obtain ⟨h1, h2⟩ := h
  have e : grantNext (joinWaiting p.requester q s) = grant p.requester q (joinWaiting p.requester q s) := by
    have a : (joinWaiting p.requester q s).arbiter.next = some (p.requester, q) := by
      simp only [joinWaiting, State.setWaiting, freeze_setArbiter, h2]
      cases p <;> cases s.arbiter.parked <;> rfl
    simp only [grantNext, a]
  have c : (joinWaiting p.requester q s).arbiter.carrying.isNone = true := by
    simp only [joinWaiting, State.setWaiting, freeze_setArbiter, h1, Option.isNone_none]
  unfold place
  simp only [c, if_true, e]
  have g : { (joinWaiting p.requester q s).setWaiting p.requester none with
      arbiter := { ((joinWaiting p.requester q s).setWaiting p.requester none).arbiter with
        parked := p.requester } } = atGrant p (freeze q s) := by
    simp only [joinWaiting, State.setWaiting, freeze_setArbiter, h2, h1, atGrant]
    cases p <;> rfl
  unfold grant
  simp only [g]
  cases p <;> rfl

/-! ### A request as a command, and what it places at the arbiter -/

theorem exec_requestCommand (p : Port) (r : HostReq) (s : State) :
    exec (requestCommand p r) s = .next (takeRequest p r s) := by cases r <;> rfl

/-- A request that finds one outstanding is dropped, but for a first PORT_RESET. -/
theorem takeRequest_busy {r : HostReq} (h : (s.port p).request ≠ .idle)
    (hr : r ≠ .portReset ∨ (s.port p).resetPending = true) :
    takeRequest p r s = dropBusy p (some r.kind) (seen p s) := by
  unfold takeRequest
  simp only [seen, port_modPort_of_other]
  split
  · rename_i e
    rcases hr with h1 | h1
    · exact absurd e.1 h1
    · rw [e.2] at h1; cases h1
  · rfl

theorem claimOfChannel_inFlight {r : HostReq} (c : Channel) : claimOfChannel c (s.inFlight p r) = claimOfChannel c s := by
  cases p <;> rfl

/-- A request that goes to the arbiter is handed over by its being placed there. -/
theorem handOver_placed {r : HostReq} {req : StoreReq} (h : s.placedFor p r = some req) :
    handOver p r (s.inFlight p r) = place p.requester req (s.inFlight p r) := by
  cases r
  case valveService b l =>
    by_cases hb : b.toNat < 24
    · simp only [State.placedFor, State.claimNeeded, hb, dif_pos, Option.map_some, Option.some.injEq] at h
      subst h
      have e : channel? b = some ⟨b.toNat, hb⟩ := dif_pos hb
      show takeValveService p b _ _ = _
      unfold takeValveService
      rw [e]
      simp only [claimOfChannel_inFlight]
      rfl
    · simp only [State.placedFor, State.claimNeeded, hb, dif_neg, not_false_iff, Option.map_none] at h
      cases h
  all_goals simp only [State.placedFor, State.claimNeeded, Option.map_some, reduceCtorEq, Option.some.injEq] at h
  all_goals (subst h; rfl)

/-- What a placed request freezes is the claim that the table of section 4.3 gives (R69). -/
theorem needs_placedFor {r : HostReq} {req : StoreReq} (h : s.placedFor p r = some req) :
    req.needs = (s.claimNeeded r).map fun c => (p, c) := by
  have z (b : Byte) : (zone? b).map (fun z => (p, zoneClaim z)) =
      (if h : b.toNat < 16 then some (zoneClaim ⟨b.toNat, h⟩) else none).map fun c => (p, c) := by
    unfold zone? fin?
    by_cases hb : b.toNat < 16 <;> simp [hb]
  cases r
  case valveService b l =>
    by_cases hb : b.toNat < 24
    · simp only [State.placedFor, State.claimNeeded, hb, dif_pos, Option.map_some, Option.some.injEq] at h
      subst h
      simp only [StoreReq.needs, State.claimNeeded, hb, dif_pos, Option.map_some]
    · simp only [State.placedFor, State.claimNeeded, hb, dif_neg, not_false_iff, Option.map_none] at h
      cases h
  all_goals simp only [State.placedFor, State.claimNeeded, Option.map_some, reduceCtorEq, Option.some.injEq] at h
  all_goals subst h
  all_goals simp only [StoreReq.needs, State.claimNeeded, Option.map_some, Option.map_none, z]

/-! ### Encodings said once more -/

theorem itemInRange_iff (i : ConfigItem) : itemInRange i = true ↔
    ∃ lo hi, parameterRanges[i.param.toNat]? = some (lo, hi) ∧ lo ≤ paramValue i.param.toNat i.value ∧
      paramValue i.param.toNat i.value ≤ hi := by
  have bound : ∀ n : Nat, parameterRanges[n]? = if n < 35 then some (paramRange n) else none := by
    intro n
    by_cases h : n < 35
    · rw [if_pos h]
      have all : ∀ k : Fin 35, parameterRanges[k.val]? = some (paramRange k.val) := by decide
      exact all ⟨n, h⟩
    · rw [if_neg h, List.getElem?_eq_none]
      have e : parameterRanges.length = 35 := by decide
      omega
  unfold itemInRange
  rw [bound]
  by_cases h : i.param.toNat < 35
  · simp only [h, if_true, Option.some.injEq, Bool.and_eq_true, decide_eq_true_eq]
    exact ⟨fun x => ⟨_, _, rfl, x.1, x.2⟩, fun ⟨_, _, e, x⟩ => by rw [e]; exact x⟩
  · have e : paramRange i.param.toNat = (1, 0) := by
      unfold paramRange
      split <;> first | omega | rfl
    simp [h, e]
    omega

theorem packedPoint?_eq_pointRead (lo hi : Int) (w : BitVec 24) : packedPoint? lo hi w = pointRead lo hi w := by
  have m : (w.extractLsb' 10 14).toNat = w.toNat / 1024 := by
    simp only [BitVec.extractLsb'_toNat, Nat.shiftRight_eq_div_pow]
    have := w.isLt
    omega
  have t : (w.extractLsb' 0 9).toNat = w.toNat % 512 := by
    simp [BitVec.extractLsb'_toNat]
  have k : w.getLsbD 9 = decide (w.toNat / 512 % 2 = 1) := by
    rw [BitVec.getLsbD, Nat.testBit_eq_decide_div_mod_eq]
  unfold packedPoint? pointRead
  simp only [m, t, k, decide_eq_true_eq, gt_iff_lt, Nat.lt_iff_add_one_le]

theorem encPoint_eq_recordBytes (q : Point) : encPoint q = q.recordBytes := by
  unfold encPoint Point.recordBytes
  cases q.kind <;> simp only [be24, byteOf]
  all_goals
    simp only [List.cons.injEq, and_true]
    refine ⟨?_, ?_, ?_⟩ <;> apply BitVec.eq_of_toNat_eq <;>
      simp [BitVec.extractLsb'_toNat, Nat.shiftRight_eq_div_pow] <;> omega

end Sys2Proof.Machine
end

