-- ==== Sys2Proof/Tests/Slice0.lean ====
section
/-! SUPPORT. Tests: ill-formed commands that the check refuses, examples of the manual, single steps of the
machine, and for every statement with premises a state and operands that meet them. -/

namespace Sys2Proof.Tests

set_option Elab.async false

open Sys2Proof Sys2Proof.Machine

/-! ### Well-formedness -/

theorem test_illFormed_scheduleLoad : (Instr.scheduleLoad .A 0 (List.replicate 85 0)).wellFormed = false := by
  decide +kernel

theorem test_illFormed_configure : (Instr.configure .A (List.replicate 64 ⟨0, 0, 0⟩)).wellFormed = false := by
  decide +kernel

theorem test_illFormed_valveService : (Instr.valveService .B 0 (List.replicate 127 ⟨0, 0⟩)).wellFormed = false := by
  decide +kernel

theorem test_illFormed_noticeMask : (Instr.noticeMask .A (List.replicate 127 ⟨0, 0⟩) 0).wellFormed = false := by
  decide +kernel

theorem test_illFormed_busError : (Instr.busError true 16).wellFormed = false := by decide

theorem test_illFormed_arbitrationLoss : (Instr.arbitrationLoss 15).wellFormed = false := by decide

theorem test_illFormed_voidTransaction :
    (Instr.voidTransaction ⟨.A, 0xA1⟩).wellFormed = false ∧ (Instr.voidTransaction ⟨.B, 0xA2⟩).wellFormed = false := by
  decide

theorem test_illFormed_badFrame :
    (Instr.badFrame .A []).wellFormed = false ∧ (Instr.badFrame .A [0xA2, 1, 0]).wellFormed = false := by
  decide

theorem test_wellFormed_atTheLimits :
    (Instr.scheduleLoad .A 0 (List.replicate 84 0)).wellFormed = true ∧
      (Instr.configure .A (List.replicate 63 ⟨0, 0, 0⟩)).wellFormed = true ∧
      (Instr.valveService .B 0 (List.replicate 126 ⟨0, 0⟩)).wellFormed = true ∧
      (Instr.noticeMask .A (List.replicate 126 ⟨0, 0⟩) 0).wellFormed = true ∧
      (Instr.busError true 15).wellFormed = true ∧ (Instr.arbitrationLoss 14).wellFormed = true ∧
      (Instr.voidTransaction ⟨.A, 0xA0⟩).wellFormed = true ∧ (Instr.badFrame .A [0xA1]).wellFormed = true := by
  decide +kernel

/-! ### Examples of the manual -/

/-- CRC-8 with polynomial 0x07 of the digits 1 to 9 is 0xF4. -/
theorem test_crcOfTheDigits : crc8 [0x31, 0x32, 0x33, 0x34, 0x35, 0x36, 0x37, 0x38, 0x39] = 0xF4 := by decide +kernel

/-- The demand examples of 01 section 1.4. -/
theorem test_demandExamples :
    demandOf 200 193 20 = 35 ∧ demandOf 200 197 20 = 15 ∧ demandOf 200 204 20 = 0 ∧ demandOf 215 180 20 = 100 ∧
      demandOf 200 199 15 = 7 ∧ demandOf 200 197 40 = 8 ∧ demandOf 50 45 20 = 25 := by
  decide

/-- The resolution examples of 03 section 3.5. -/
theorem test_resolutionExamples :
    let hold := fun t : Int => some (Hold.mk t false .indefinite .A)
    let boost := fun d : Nat => some (Boost.mk d 30 0)
    resolve .inService 200 ⟨none, none, false⟩ 50 280 = (200, .base) ∧
      resolve .inService 200 ⟨hold 220, none, false⟩ 50 280 = (220, .hold) ∧
      resolve .inService 200 ⟨none, boost 15, false⟩ 50 280 = (215, .boost) ∧
      resolve .inService 200 ⟨hold 220, boost 15, false⟩ 50 280 = (235, .boost) ∧
      resolve .inService 200 ⟨hold 270, boost 30, false⟩ 50 280 = (280, .boost) ∧
      resolve .inService 200 ⟨hold 220, none, true⟩ 50 280 = (50, .window) ∧
      resolve .off 200 ⟨none, none, false⟩ 50 280 = (50, .floor) ∧
      resolve .off 200 ⟨hold 220, none, true⟩ 50 280 = (50, .window) ∧
      resolve .unused 200 ⟨hold 220, none, false⟩ 50 280 = (220, .hold) ∧
      resolve .inService 60 ⟨none, none, false⟩ 80 280 = (80, .floor) ∧
      resolve .inService 60 ⟨none, boost 15, false⟩ 80 280 = (80, .floor) := by
  decide

/-! ### Single steps -/

/-- The state a command answers. -/
def after (i : Instr) (s : Machine.State) : Machine.State :=
  match exec i s with
  | .next t => t
  | .fault _ => s
  | .refused _ => s

/-- A port holds the configuration claim or the claim of zone 4. -/
def claimed (p : Port) (c : ClaimIx) : Machine.State := Machine.State.reset.setClaim c (some ⟨p, 24, false⟩)

theorem test_claim_taken :
    let t := after (.claim .A 16) .reset
    t.store.claims[configClaim] = some ⟨.A, 30, false⟩ ∧ t.portA.request = .inFlight ∧ t.arbiter.parked = .portA := by
  decide +kernel

theorem test_claim_completed :
    let t := after .storeRequestComplete (after (.claim .A 16) .reset)
    t.portA.request = .replyReady ∧ t.portA.reply = some ⟨some 8, .ok, [16, 0, 30]⟩ ∧ t.portA.attentionLow = true := by
  decide +kernel

theorem test_claim_heldByOther :
    let t := after .storeRequestComplete (after (.claim .B 16) (claimed .A 16))
    t.portB.reply = some ⟨some 8, .heldByOther, [16, 0, 24, 0]⟩ ∧
      t.portB.fault = some ⟨some 8, .heldByOther, some 16, 0, 0⟩ := by
  decide +kernel

theorem test_unitAdmit_withoutClaim :
    let t := after .storeRequestComplete (after (.unitAdmit .A 9 4 0) (claimed .B 16))
    t.portA.reply = some ⟨some 18, .noClaim, []⟩ ∧ t.portA.fault = some ⟨some 18, .noClaim, some 9, 0, 0⟩ := by
  decide +kernel

theorem test_setTime_thenMinuteEvent :
    let t := after .secondEvent (after .storeRequestComplete (after (.setTime .B 10079 59) .reset))
    t.clock.minute = 0 ∧ t.clock.seconds = 0 ∧ t.clock.authority = some .B ∧
      t.arbiter.carrying = some ⟨.minuteEval 1, .done⟩ := by
  decide +kernel

theorem test_scheduleInsert_placed :
    let t := after (.scheduleInsert .A 4 600 0 215) (claimed .A 4)
    t.store.lists[(4 : Zone)] = [⟨600, .target 215⟩] ∧ t.store.free = 511 ∧ t.store.revisions[(4 : Zone)] = 1 ∧
      t.store.current[(4 : Zone)] = none := by
  decide +kernel

theorem test_exchange_ofAnIdleDevice :
    let t := after .exchange .reset
    t.link.exchange = .sending ∧ t.link.demand = some ⟨false, false, false, 35⟩ ∧ t.clock.ticks = 65536 ∧
      t.link.bldir = .towardsBoiler := by
  decide +kernel

theorem test_busFree_after33Periods : (after .busFree .reset).bus.line = .free ∧ (after .busFree .reset).clock.ticks = 33 := by
  decide +kernel

theorem test_step_ofTheEmptyQueue :
    (match step Machine.State.reset with
      | .next t => t.clock.ticks
      | _ => 0) = 1 := by
  decide +kernel

theorem test_decode_spellsNothing : decodeTableWord 8 0x15 = none := rfl

theorem test_outboundFrame_announce :
    busFrame 0 0x10 0x06 (OutBody.payload (.announce 2 210 .hold)) =
      [0, 0x10, 0x06, 4, 2, 0, 0xD2, 1, crc8 [0, 0x10, 0x06, 4, 2, 0, 0xD2, 1]] := by
  decide +kernel

/-! ### Witnesses: states and operands that meet the premises of the statements -/

theorem readyOf {s : Machine.State} {p : Port} (h1 : (s.port p).request = .idle) (h2 : (s.port p).discard = false)
    (h3 : s.arbiter.carrying = none) (h4 : s.arbiter.waiting = ⟨none, none, none, none, none⟩) : s.ready p :=
  ⟨⟨h1, h2⟩, h3, h4⟩

/-- A port whose reply waits. -/
def replied : Machine.State :=
  { Machine.State.reset with portA := { PortState.reset with
      request := .replyReady, slot := some .identify, reply := some ⟨some 1, .ok, []⟩, attentionLow := true } }

/-- A port whose request is in flight. -/
def onItsWay : Machine.State :=
  { Machine.State.reset with portA := { PortState.reset with request := .inFlight, slot := some .releaseTime } }

def aNotice : Notice := ⟨.timeSet, .port .B, 0, []⟩

def noticed : Machine.State :=
  { Machine.State.reset with portA := { PortState.reset with notices := [aNotice], attentionLow := true } }

theorem test_witness_AnEmptyQueueLetsOneCrystalPeriodPass : Machine.State.reset.pending = [] := rfl

theorem test_witness_RefusedTransactionsAreAnsweredOrDropped :
    (0xA0 : Byte) ≠ 0xA1 ∧ (0xA0 : Byte) ≠ 0xA2 ∧ judgeFrame [] = .badFrame none ∧ judgeFrame [1, 0] = .badFrame (some 1) ∧
      judgeFrame [30, 0, crc8 [30, 0]] = .unknownKind 30 ∧
      (replied.port .A).request ≠ .idle ∧ HostReq.identify ≠ .portReset ∧ HostReq.identify.fits = true := by
  decide +kernel

theorem test_witness_RequestFramesAreJudgedInOrder :
    ([1, 0] : List Byte).length < 3 ∧ ([] : List Byte).length ≠ (1 : Byte).toNat ∧
      ([] : List Byte).length = (0 : Byte).toNat ∧ (crc8 [1, 0] + 1 ≠ crc8 ((1 : Byte) :: 0 :: [])) ∧
      29 < (30 : Byte).toNat ∧ ((29 : Byte) ≠ 0 ∧ (29 : Byte).toNat ≤ 29 ∧ parseBody 29 [] = some .portReset) ∧
      ((2 : Byte) ≠ 0 ∧ (2 : Byte).toNat ≤ 29 ∧ parseBody 2 [] = none) := by
  decide +kernel

theorem test_witness_EveryRequestFrameIsReadAsWritten :
    HostReq.portReset.fits = true ∧ (HostReq.scheduleLoad 0 (List.replicate 84 0)).fits = true := by
  decide +kernel

theorem test_witness_AFetchTakesItsItemByItsHeader :
    (replied.port .A).fetch = none ∧ (replied.port .A).reply = some ⟨some 1, .ok, []⟩ ∧
      (noticed.port .A).fetch = none ∧ (noticed.port .A).reply = none ∧ (noticed.port .A).notices = aNotice :: [] ∧
      (Machine.State.reset.port .A).notices = [] ∧
      (let f : FetchInProgress := ⟨.reply ⟨some 1, .ok, []⟩, true, 0, false⟩
       ((after (.fetch .A) { replied with portA := { replied.portA with noticesLost := true } }).port .A).fetch = some f ∧
         f.gone = false ∧ (replied.port .A).request = .replyReady) ∧
      (let s := after (.portReset .A) (after (.fetch .A) noticed)
       ((after .storeRequestComplete s).port .A).fetch = some ⟨.notice aNotice, false, 0, true⟩) := by
  decide +kernel

theorem test_witness_ReadsReportTheRecordsAsTheyStand :
    Machine.State.reset.portIdle .B ∧ (15 : Byte).toNat = (15 : Zone).val ∧ 16 ≤ (16 : Byte).toNat ∧
      (31 : Byte).toNat = (31 : UnitIx).val ∧ 32 ≤ (32 : Byte).toNat ∧ (23 : Byte).toNat = (23 : Channel).val ∧
      24 ≤ (24 : Byte).toNat :=
  ⟨⟨rfl, rfl⟩, by decide +kernel⟩

def lockedOut (n : Nat) : Machine.State :=
  { Machine.State.reset with firing := { Firing.reset with state := .lockout, resetsToday := n } }

theorem test_witness_ClearLockoutAsksForAReset :
    (lockedOut 2).portIdle .A ∧ (lockedOut 3).portIdle .A ∧ Machine.State.reset.portIdle .A ∧
      (lockedOut 2).firing.state = .lockout ∧ (lockedOut 2).firing.resetsToday < 3 ∧
      3 ≤ (lockedOut 3).firing.resetsToday ∧ Machine.State.reset.firing.state ≠ .lockout :=
  ⟨⟨rfl, rfl⟩, ⟨rfl, rfl⟩, ⟨rfl, rfl⟩, by decide +kernel⟩

theorem test_witness_NoticeMaskAndFaultReadAnswerForTheirPort :
    noticed.portIdle .A ∧
      (let l : List (Fin 22 × Bool) := [(0, true), (21, false)]
       l ≠ [] ∧ (l.map (·.1)).Nodup ∧
         ([⟨0, 1⟩, ⟨21, 0⟩] : List MaskEntry) = l.map (fun x => ⟨BitVec.ofNat 8 x.1.val, encFlag x.2⟩)) ∧
      (1 : Byte) = encFlag true ∧ ([] : List MaskEntry).length = 0 ∧ 22 < (List.replicate 23 (⟨0, 1⟩ : MaskEntry)).length ∧
      2 ≤ (2 : Byte).toNat ∧ ¬ (([⟨3, 1⟩, ⟨3, 0⟩] : List MaskEntry).map (·.kind)).Nodup ∧ 22 ≤ (22 : Byte).toNat :=
  ⟨⟨rfl, rfl⟩, by decide +kernel⟩

theorem test_witness_ClaimIsTakenKeptOrRefused :
    (claimed .A 16).ready .A ∧ (claimed .A 16).ready .B ∧ (16 : Byte).toNat = configClaim.val ∧
      17 ≤ (17 : Byte).toNat ∧ Machine.State.reset.store.claims[configClaim] = none ∧
      (claimed .A 16).heldBy configClaim .A ∧
      (claimed .A 16).store.claims[configClaim] = some ⟨.A, 24, false⟩ ∧ (Port.A ≠ .B) :=
  ⟨readyOf rfl rfl rfl rfl, readyOf rfl rfl rfl rfl, by decide, by decide, by decide +kernel,
    ⟨⟨.A, 24, false⟩, by decide +kernel, rfl⟩, by decide +kernel, by decide⟩

theorem test_witness_ReleaseGivesUpAClaim :
    (claimed .A 16).ready .A ∧ (16 : Byte).toNat = configClaim.val ∧ (claimed .A 16).heldBy configClaim .A ∧
      ¬ Machine.State.reset.heldBy configClaim .A ∧ 17 ≤ (17 : Byte).toNat := by
  refine ⟨readyOf rfl rfl rfl rfl, by decide, ⟨⟨.A, 24, false⟩, by decide +kernel, rfl⟩, ?_, by decide⟩
  rintro ⟨h, e, -⟩
  have none' : Machine.State.reset.store.claims[configClaim] = none := by decide +kernel
  rw [none'] at e
  cases e

/-- Port B is the time authority. -/
def ruledByB : Machine.State := { Machine.State.reset with clock := { Clock.reset with authority := some .B } }

theorem test_witness_ReleaseTimeGivesUpTheAuthority :
    ruledByB.ready .B ∧ ruledByB.clock.authority = some .B ∧ ruledByB.ready .A ∧ ruledByB.clock.authority ≠ some .A :=
  ⟨readyOf rfl rfl rfl rfl, rfl, readyOf rfl rfl rfl rfl, by decide⟩

theorem test_witness_SetTimeSetsTheClockAndEveryPoint :
    Machine.State.reset.ready .A ∧ (10079 : Half).toNat ≤ 10079 ∧ (59 : Byte).toNat ≤ 59 ∧
      Machine.State.reset.clock.authority ≠ some Port.A.other ∧ (Machine.State.reset.port .A).notices = [] ∧
      (Machine.State.reset.port .A).mask = Vector.replicate 22 true ∧
      (let m := after (.setTime .A 10079 59) .reset
       ∀ z : Zone, m.zones[z] = Machine.State.reset.zones[z] ∧
         m.store.overrides[z] = Machine.State.reset.store.overrides[z]) ∧
      ruledByB.ready .A ∧ ruledByB.clock.authority = some Port.A.other ∧ 10079 < (10080 : Half).toNat ∧
      59 < (60 : Byte).toNat :=
  ⟨readyOf rfl rfl rfl rfl, by decide, by decide, by decide, rfl, rfl, by decide +kernel,
    readyOf rfl rfl rfl rfl, rfl, by decide, by decide⟩

theorem test_witness_ResolutionFollowsItsTable :
    (50 : Int) ≤ 280 ∧ Machine.State.reset.targetsSound ∧ exec .loopEvent .reset = .next (after .loopEvent .reset) := by
  refine ⟨by decide, ?_, rfl⟩
  unfold State.targetsSound Params.limitsSound
  decide +kernel

/-- A zone in service whose resolution has yet to be made, before and after the first loop event. -/
def unresolved (ran : Bool) : Machine.State :=
  { Machine.State.reset with
    zones := Machine.State.reset.zones.set (5 : Zone) { ZoneRecord.reset with serviceMode := .inService, baseTarget := 200 }
    demand := { DemandUnit.reset with loopRan := ran } }

theorem test_witness_AResolutionTellsOfItsOutcome :
    (let t := settle false 5 (unresolved true)
     (t.zones[(5 : Zone)].resolvedTarget ≠ (unresolved true).zones[(5 : Zone)].resolvedTarget) ∧
       (unresolved true).bus.outbound = [] ∧ ((unresolved true).port .A).mask[0] = true ∧
       ((unresolved true).port .A).notices.length < 32 ∧ (unresolved true).demand.loopRan = true ∧
       (unresolved false).demand.loopRan = false) ∧
     settle false 5 Machine.State.reset = .reset := by
  decide +kernel

/-- Port A holds the claim of zone 4, where PENDING unit 9 stands. -/
def editing : Machine.State :=
  { claimed .A 4 with report := { ReportProcessor.reset with registry := ReportProcessor.reset.registry.set (9 : UnitIx) (some
      { address := 0x24, serial := 7, unitType := 1, state := .pending, lastTemp := none, lastHumidity := none
        lastReport := none, freshness := .lost, implausibleCount := 0, faulty := false }) } }

theorem editing_ready (p : Port) : editing.ready p := by cases p <;> exact readyOf rfl rfl rfl rfl

theorem editing_held : editing.heldBy (zoneClaim 4) .A := ⟨⟨.A, 24, false⟩, by decide +kernel, rfl⟩

theorem editing_notHeld (p : Port) (z : Zone) (h : ¬ (p = .A ∧ z = 4)) : ¬ editing.heldBy (zoneClaim z) p := by
  have other : ∀ y : Zone, y ≠ 4 → editing.store.claims[zoneClaim y] = none := by decide +kernel
  have own : editing.store.claims[zoneClaim 4] = some ⟨.A, 24, false⟩ := by decide +kernel
  rintro ⟨k, e, holder⟩
  by_cases hz : z = 4
  · subst hz
    rw [own] at e
    cases e
    exact h ⟨holder.symm, rfl⟩
  · rw [other z hz] at e
    cases e

theorem test_witness_SetZoneWritesTheZone :
    editing.ready .A ∧ editing.heldBy (zoneClaim 4) .A ∧ (4 : Byte).toNat = (4 : Zone).val ∧
      serviceMode? 2 = some .inService ∧ finOrNone? 32 0xFF = some none ∧ finOrNone? 32 9 = some (some 9) ∧
      editing.written.frostFloor ≤ (50 : Half).toInt ∧ (280 : Half).toInt ≤ editing.written.maxTarget ∧
      (editing.report.registry[(9 : UnitIx)]).isSome = true ∧ serviceMode? 3 = none ∧
      (49 : Half).toInt < editing.written.frostFloor ∧ editing.written.maxTarget < (281 : Half).toInt ∧
      finOrNone? 32 32 = none ∧ finOrNone? 32 31 = some (some 31) ∧ editing.report.registry[(31 : UnitIx)] = none :=
  ⟨editing_ready _, editing_held, by decide +kernel⟩

/-- The list of zone 4, and what the pool then has left. -/
def listed (l : List Point) (free : Nat) : Machine.State :=
  { editing with store := { editing.store with lists := editing.store.lists.set (4 : Zone) l, free := free } }

theorem listed_ready (l : List Point) (free : Nat) : (listed l free).ready .A := readyOf rfl rfl rfl rfl

theorem listed_held (l : List Point) (free : Nat) : (listed l free).heldBy (zoneClaim 4) .A := editing_held

def full : List Point := (List.range 64).map fun n => ⟨n, .setbackToDefault⟩

theorem test_witness_ScheduleInsertAndDeleteChangeOnePoint :
    (listed full 448).ready .A ∧ (listed full 448).heldBy (zoneClaim 4) .A ∧ (4 : Byte).toNat = (4 : Zone).val ∧
      10079 < (10080 : Half).toNat ∧ (10079 : Half).toNat ≤ 10079 ∧ 2 ≤ (2 : Byte).toNat ∧
      (49 : Half).toInt < Machine.State.reset.written.frostFloor ∧
      (Machine.State.reset.written.frostFloor ≤ (280 : Half).toInt ∧
        (280 : Half).toInt ≤ Machine.State.reset.written.maxTarget ∧
        PointKind.target 280 = .target (280 : Half).toInt) ∧
      ((listed full 448).store.lists[(4 : Zone)] = full ∧ 64 ≤ full.length ∧
        (∃ q ∈ full, q.minute = (63 : Half).toNat) ∧ (∀ q ∈ full, q.minute ≠ (10079 : Half).toNat)) ∧
      ((listed [] 0).store.lists[(4 : Zone)] = [] ∧ (listed [] 0).store.free = 0 ∧ 0 < (listed [] 1).store.free) :=
  ⟨listed_ready _ _, listed_held _ _, by decide +kernel⟩

theorem test_witness_ScheduleListsAreReplacedAndReported :
    (listed full 448).ready .A ∧ (listed full 448).heldBy (zoneClaim 4) .A ∧ (4 : Byte).toNat = (4 : Zone).val ∧
      64 < (List.replicate 65 (0 : BitVec 24)).length ∧
      (let read := pointRead 50 280
       let good : BitVec 24 := 10079#14 ++ 0#1 ++ 250#9
       let back : BitVec 24 := 10078#14 ++ 1#1 ++ 0#9
       read good = some ⟨10079, .target 280⟩ ∧ read back = some ⟨10078, .setbackToDefault⟩ ∧
         read (10080#14 ++ 1#1 ++ 0#9) = none ∧ read (0#14 ++ 0#1 ++ 19#9) = none ∧
         [good, back].map read = [⟨10079, .target 280⟩, ⟨10078, .setbackToDefault⟩].map some ∧
         (([⟨10079, .target 280⟩, ⟨10078, .setbackToDefault⟩] : List Point).map (·.minute)).Nodup ∧
         [good, good].map read = [⟨10079, .target 280⟩, ⟨10079, .target 280⟩].map some) ∧
      (listed [] 0).store.free + (listed [] 0).store.lists[(4 : Zone)].length < 1 ∧
      1 ≤ (listed [] 1).store.free + (listed [] 1).store.lists[(4 : Zone)].length ∧ (63 : Byte).toNat ≤ 63 ∧
      64 ≤ (64 : Byte).toNat ∧ 16 ≤ (16 : Byte).toNat :=
  ⟨listed_ready _ _, listed_held _ _, by decide +kernel⟩

theorem test_witness_RequestsWithoutTheirClaimAreRefused :
    editing.ready .B ∧ (4 : Byte).toNat = (4 : Zone).val ∧ ¬ editing.heldBy (zoneClaim 4) .B ∧
      ¬ editing.heldBy (zoneClaim 15) .A ∧ (15 : Byte).toNat = (15 : Zone).val ∧ 16 ≤ (16 : Byte).toNat ∧
      ¬ editing.heldBy configClaim .A := by
  refine ⟨editing_ready _, by decide, editing_notHeld _ _ (by decide), editing_notHeld _ _ (by decide), by decide,
    by decide, ?_⟩
  rintro ⟨h, e, -⟩
  have free : editing.store.claims[configClaim] = none := by decide +kernel
  rw [free] at e
  cases e

/-- A zone with a HOLD of port B and a BOOST of unit 3. -/
def overridden : Machine.State :=
  Machine.State.reset.modStack 15 fun _ => ⟨some ⟨210, false, .duration 1, .B⟩, some ⟨15, 1, 3⟩, true⟩

theorem test_witness_OverridesArePushedAndCancelled :
    overridden.ready .A ∧ (15 : Byte).toNat = (15 : Zone).val ∧
      overridden.written.frostFloor ≤ (50 : Half).toInt ∧ (280 : Half).toInt ≤ overridden.written.maxTarget ∧
      (1 : Byte) = encFlag true ∧ 1 ≤ (1 : Half).toNat ∧ (10080 : Half).toNat ≤ 10080 ∧
      (overridden.port .A).mask[1] = true ∧ (overridden.port .A).notices.length < 32 ∧
      (let m := after (.pushHold .A 0 180 0 2 0) Machine.State.reset
       m.zones[(1 : Zone)] = Machine.State.reset.zones[(1 : Zone)]) ∧
      16 ≤ (16 : Byte).toNat ∧ (49 : Half).toInt < overridden.written.frostFloor ∧
      overridden.written.maxTarget < (281 : Half).toInt ∧ 2 ≤ (2 : Byte).toNat ∧ 3 ≤ (3 : Byte).toNat ∧
      (0 : Half).toNat < 1 ∧ 10080 < (10081 : Half).toNat ∧
      (overridden.store.overrides[(15 : Zone)].hold).isSome = true ∧
      (overridden.store.overrides[(15 : Zone)].boost).isSome = true ∧
      overridden.store.overrides[(14 : Zone)].hold = none ∧ overridden.store.overrides[(14 : Zone)].boost = none :=
  ⟨readyOf rfl rfl rfl rfl, by decide +kernel⟩

theorem config_ready (p : Port) : (claimed .A 16).ready p := by cases p <;> exact readyOf rfl rfl rfl rfl

theorem config_held : (claimed .A 16).heldBy configClaim .A := ⟨⟨.A, 24, false⟩, by decide +kernel, rfl⟩

theorem test_witness_ConfigureChecksItsItemsThenWritesThemAll :
    (claimed .A 16).ready .A ∧ (claimed .A 16).heldBy configClaim .A ∧
      (let w := (claimed .A 16).written
       configFault w [⟨0, 0, 100⟩, ⟨34, 15, 0⟩] = none ∧ configFault w [⟨34, 15, 0⟩] = none ∧
         configFault w [⟨0, 0, 101⟩] = some [0] ∧ configFault w [] = some [] ∧
         24 < (List.replicate 25 (⟨0, 0, 50⟩ : ConfigItem)).length ∧
         34 < (35 : Byte).toNat ∧ 16 ≤ (16 : Byte).toNat ∧
         itemNamed ⟨34, 15, 0⟩ = true ∧ itemKey ⟨0, 0, 50⟩ = itemKey ⟨0, 1, 60⟩ ∧
         (([⟨0, 0, 50⟩, ⟨1, 0, 280⟩] : List ConfigItem).map itemKey).Nodup) ∧
      (after (.configure .A [⟨0, 0, 100⟩]) (claimed .A 16)).written.frostFloor ≠ (claimed .A 16).written.frostFloor :=
  ⟨config_ready _, config_held, by decide +kernel⟩

/-- Port A's claim check or request in flight with a reset of the port pending on it. -/
def discarding : Machine.State :=
  { claimed .A 16 with portA := { PortState.reset with
      request := .inFlight, slot := some (.claim 16), resetPending := true, discard := true } }

theorem test_witness_ACompletionBringsTheReplyOrLetsTheResetGoOn :
    (claimed .A 16).portIdle .A ∧ (discarding.port .A).discard = true ∧
      ∀ items, HostReq.claim 16 ≠ .configure items :=
  ⟨⟨rfl, rfl⟩, rfl, fun _ h => by cases h⟩

/-- Values written by a CONFIGURE and not taken up yet: loop_period, open_threshold, served_limit and the enable
of contact 15. -/
def configured : Machine.State :=
  { claimed .A 16 with
    taken := { Params.reset with contacts := Params.reset.contacts.set (15 : Zone) { ContactSettings.reset with enable := true } }
    written := { Params.reset with loopPeriod := 60, openThreshold := 30, servedLimit := 4 } }

theorem test_witness_ACompletedConfigureReachesTheBlocks :
    configured.portIdle .A ∧ configured.heldBy configClaim .A ∧
      configured.taken.contacts[(15 : Zone)].enable = true ∧ configured.written.contacts[(15 : Zone)].enable = false ∧
      configured.taken.contacts[(0 : Zone)].enable = false ∧
      configured.taken.openThreshold ≠ configured.written.openThreshold :=
  ⟨⟨rfl, rfl⟩, config_held, by decide +kernel⟩

/-- A minute evaluation carried out while other requests wait. -/
def contended (w : WaitingSet) : Machine.State :=
  { Machine.State.reset with arbiter := ⟨w, some ⟨.minuteEval 1, .done⟩, .clock⟩ }

theorem test_witness_GrantsGoRoundTheRing :
    (let a : Arbiter := ⟨⟨none, some (.host .B .releaseTime), none, none, none⟩, none, .portB⟩
     (a.waiting.get .portB).isSome = true ∧ (∀ q', q' ≠ .portB → a.waiting.get q' = none) ∧
       a.next = some (.portB, .host .B .releaseTime)) ∧
      (let w : WaitingSet := ⟨some (.host .A .releaseTime), some (.host .B .releaseTime), some (.boostCancel 3),
         some (.window 2 .push), some (.minuteEval 4)⟩
       (contended w).arbiter.carrying = some ⟨.minuteEval 1, .done⟩ ∧ (∃ m, StoreReq.minuteEval 1 = .minuteEval m) ∧
         (contended w).arbiter.next = some (.portA, .host .A .releaseTime) ∧ Requester.portA ≠ .report ∧
         Requester.portA ≠ .contact) := by
  refine ⟨⟨by decide, ?_, by decide⟩, by decide, ⟨1, rfl⟩, by decide, by decide, by decide⟩
  intro q' h
  cases q' <;> first | rfl | exact absurd rfl h

theorem test_witness_PortResetFreesWhatThePortHolds :
    (replied.port .A).request ≠ .inFlight ∧ (replied.port .A).resetPending = false ∧ replied.arbiterIdle ∧
      Machine.State.reset.portIdle .A ∧ (onItsWay.port .A).request = .inFlight ∧
      (onItsWay.port .A).resetPending = false ∧ (discarding.port .A).request ≠ .idle ∧
      (discarding.port .A).resetPending = true :=
  ⟨by decide, rfl, ⟨rfl, rfl⟩, ⟨rfl, rfl⟩, rfl, rfl, by decide, rfl⟩

theorem test_witness_OwnersRequestsBeginWithAClaimCheck :
    (claimed .A 16).ready .A ∧ (23 : Byte).toNat = (23 : Channel).val ∧ (claimed .A 16).holds .A configClaim = true ∧
      (claimed .A 16).holds .B configClaim = false ∧ (claimed .A 16).portIdle .A ∧ 24 ≤ (24 : Byte).toNat :=
  ⟨config_ready _, by decide, by decide +kernel, by decide +kernel, ⟨rfl, rfl⟩, by decide⟩

/-- A unit record as tests use it. -/
def aUnit (state : UnitState) : UnitRecord :=
  { address := 0x24, serial := 7, unitType := 1, state := state, lastTemp := some 201, lastHumidity := none
    lastReport := some 0, freshness := .fresh, implausibleCount := 2, faulty := false }

/-- Port A holds the configuration claim and unit 31 stands in the registry. -/
def withUnit (state : UnitState) : Machine.State :=
  (claimed .A 16).setUnit 31 (some (aUnit state))

theorem withUnit_held (state : UnitState) : (withUnit state).heldBy configClaim .A := config_held

theorem test_witness_UnitAdmitMakesARecordActive :
    (withUnit (.active 2 .sensor)).portIdle .A ∧ (withUnit (.active 2 .sensor)).heldBy configClaim .A ∧
      (31 : Byte).toNat = (31 : UnitIx).val ∧ (15 : Byte).toNat = (15 : Zone).val ∧ role? 1 = some .panel ∧
      (withUnit (.active 2 .sensor)).report.registry[(31 : UnitIx)] = some (aUnit (.active 2 .sensor)) ∧
      (aUnit (.active 2 .sensor)).zone = some 2 ∧ (withUnit (.active 2 .sensor)).bus.outbound = [] ∧
      (withUnit (.active 2 .sensor)).report.registry[(30 : UnitIx)] = none ∧
      32 ≤ (32 : Byte).toNat ∧ 16 ≤ (16 : Byte).toNat ∧ 2 ≤ (2 : Byte).toNat :=
  ⟨⟨rfl, rfl⟩, withUnit_held _, by decide +kernel⟩

theorem test_witness_UnitRemoveFreesARecord :
    (withUnit .pending).portIdle .A ∧ (withUnit .pending).heldBy configClaim .A ∧
      (31 : Byte).toNat = (31 : UnitIx).val ∧
      (withUnit .pending).report.registry[(31 : UnitIx)] = some (aUnit .pending) ∧
      (withUnit .pending).report.storeOrders = [] :=
  ⟨⟨rfl, rfl⟩, withUnit_held _, by decide +kernel⟩

/-- A channel record at rest. -/
def aChannel (zone : Option Zone) (state : ChannelState) (calibrated : Bool) (queue : List Entry) : ChannelRecord :=
  { ChannelRecord.reset with
    zone := zone
    state := state
    calibrated := calibrated
    position := if calibrated then some 60 else none
    queue := queue }

/-- Port A holds a claim, and channel 23 stands as given. -/
def withChannel (claim : ClaimIx) (r : ChannelRecord) : Machine.State := (claimed .A claim).modChannel 23 fun _ => r

theorem withChannel_config (r : ChannelRecord) : (withChannel 16 r).heldBy configClaim .A := config_held

theorem withChannel_zone (r : ChannelRecord) : (withChannel 15 r).heldBy (zoneClaim 15) .A :=
  ⟨⟨.A, 24, false⟩, rfl, rfl⟩

theorem test_witness_ValveAssignSetsAChannel :
    (∀ r, (withChannel 16 r).portIdle .A ∧ (withChannel 16 r).heldBy configClaim .A) ∧
      (23 : Byte).toNat = (23 : Channel).val ∧ finOrNone? 16 15 = some (some 15) ∧ finOrNone? 16 0xFF = some none ∧
      10 ≤ (10 : Half).toNat ∧ (300 : Half).toNat ≤ 300 ∧ (100 : Byte).toNat ≤ 100 ∧
      (99 : Byte).toNat < (100 : Byte).toNat ∧
      ((withChannel 16 (aChannel (some 15) .moving true [])).channel 23).state = .moving ∧
      ((withChannel 16 (aChannel (some 15) .idle true [])).channel 23).state ≠ .moving ∧
      ((withChannel 16 (aChannel (some 15) .idle true [])).channel 23).zone = some 15 ∧
      ((withChannel 16 (aChannel none .unassigned false [])).channel 23).zone ≠ some 15 ∧
      ((withChannel 16 (aChannel (some 3) .fault false [])).channel 23).state = .fault ∧
      ((withChannel 16 (aChannel (some 3) .idle true [])).channel 23).calibrated = true ∧
      ((withChannel 16 (aChannel (some 3) .uncalibrated false [])).channel 23).calibrated = false ∧
      24 ≤ (24 : Byte).toNat ∧ (16 ≤ (16 : Byte).toNat ∧ (16 : Byte) ≠ 0xFF) ∧ ¬ 10 ≤ (9 : Half).toNat ∧
      ¬ (301 : Half).toNat ≤ 300 ∧ ¬ (101 : Byte).toNat ≤ 100 ∧ ¬ (50 : Byte).toNat < (50 : Byte).toNat :=
  ⟨fun _ => ⟨⟨rfl, rfl⟩, withChannel_config _⟩, by decide +kernel⟩

theorem test_witness_ValveServiceAppendsItsEntries :
    (∀ r, (withChannel 15 r).portIdle .A ∧ (withChannel 15 r).heldBy (zoneClaim 15) .A ∧
      (withChannel 16 r).heldBy configClaim .A) ∧
      (23 : Byte).toNat = (23 : Channel).val ∧
      ((withChannel 15 (aChannel (some 15) .idle true [])).channel 23).zone = some 15 ∧
      ((withChannel 16 (aChannel none .unassigned false [])).channel 23).zone = none ∧
      6 < (List.replicate 7 (⟨3, 0⟩ : ServiceEntry)).length ∧ serviceEntry? .A ⟨0, 101⟩ = none ∧
      serviceEntry? .A ⟨1, 0⟩ = none ∧ serviceEntry? .A ⟨4, 0⟩ = none ∧
      [serviceEntry? .A ⟨0, 100⟩, serviceEntry? .A ⟨1, 1⟩, serviceEntry? .A ⟨2, 9⟩, serviceEntry? .A ⟨3, 255⟩] =
        [Entry.moveTo 100 .service, .dwell 1, .seekClosed, .mark .A 255].map some ∧
      ((withChannel 15 (aChannel (some 15) .fault false [])).channel 23).state = .fault ∧
      ((withChannel 15 (aChannel (some 15) .uncalibrated false [])).channel 23).calibrated = false ∧
      8 < (List.replicate 3 Entry.seekClosed).length + 6 ∧ (List.replicate 2 Entry.seekClosed).length + 6 ≤ 8 ∧
      ((withChannel 15 (aChannel (some 15) .waiting true [.moveTo 10 .loop])).channel 23).state = .waiting :=
  ⟨fun _ => ⟨⟨rfl, rfl⟩, withChannel_zone _, withChannel_config _⟩, by decide +kernel⟩

/-- Drive slots taken by channels 0, 1 and 2, as many as asked. -/
def slotsTaken (n : Nat) (s : Machine.State) : Machine.State :=
  { s with valves := { s.valves with slots := #v[some 0, if 2 ≤ n then some 1 else none, if 3 ≤ n then some 2 else none] } }

theorem test_witness_ValveClearStartsASeekClosed :
    (let s := slotsTaken 3 (withChannel 16 (aChannel (some 15) .fault false []))
     s.portA.request = .idle ∧ s.portA.discard = false ∧ (s.channel 23).state = .fault ∧ (s.channel 23).queue = [] ∧
       (s.channel 23).urgent = none ∧ (s.channel 23).inProgress = none ∧ s.valves.waiting = [] ∧
       ∀ i : Slot, (s.valves.slots[i]).isSome = true) ∧
      (let s := slotsTaken 2 (withChannel 16 (aChannel (some 15) .fault false []))
       s.valves.slots[(2 : Slot)] = none ∧ ∀ j : Slot, j < 2 → (s.valves.slots[j]).isSome = true) ∧
      ((withChannel 16 (aChannel (some 15) .idle true [])).channel 23).state ≠ .fault ∧
      (23 : Byte).toNat = (23 : Channel).val ∧ 24 ≤ (24 : Byte).toNat := by
  decide +kernel

/-- The clock one second from a minute event, at a minute of the week. -/
def atMinute (minute : Nat) : Machine.State :=
  { Machine.State.reset with clock := { Clock.reset with minute := minute, seconds := 59 } }

theorem test_witness_ASecondEventCountsClaimsAndUnits :
    Machine.State.reset.clock.seconds < 59 ∧
      (∀ u : UnitIx, (after .secondEvent .reset).report.registry[u] = Machine.State.reset.report.registry[u]) ∧
      (let s := claimed .A 16
       ∀ c : ClaimIx, (s.store.claims[c]).all (fun _ => ((after .secondEvent s).store.claims[c]).isSome) = true) := by
  decide +kernel

theorem arbiterSound_of {s : Machine.State} (h1 : s.arbiter.carrying = none → s.arbiter.waiting = ⟨none, none, none, none, none⟩)
    (h2 : s.portA.discard = false) (h3 : s.portB.discard = false) (h4 : s.report.storeOrders = []) :
    s.arbiterSound := by
  unfold State.arbiterSound PortState.discardSound
  simp only [h2, h3, h4]
  exact ⟨h1, fun r hr => absurd hr (List.not_mem_nil), fun h => absurd h (by decide), fun h => absurd h (by decide)⟩

theorem test_witness_AMinuteEventBringsItsEvaluation :
    (atMinute 1439).arbiterSound ∧ 59 ≤ (atMinute 1439).clock.seconds ∧ (atMinute 1439).arbiterIdle ∧
      (contended ⟨none, none, none, none, some (.minuteEval 4)⟩).arbiterSound ∧
      (contended ⟨none, none, none, none, some (.minuteEval 4)⟩).arbiter.waiting.clock = some (.minuteEval 4) ∧
      (contended ⟨none, none, none, none, none⟩).arbiter.waiting.clock = none ∧
      (contended ⟨none, none, none, none, none⟩).arbiter.carrying.isSome = true :=
  ⟨arbiterSound_of (fun _ => rfl) rfl rfl rfl, by decide, ⟨rfl, rfl⟩,
    arbiterSound_of (fun h => by cases h) rfl rfl rfl, rfl, rfl, rfl⟩

theorem test_witness_CountsOfClaimsOverridesAndUnitsRunOut :
    (let s := Machine.State.reset.setClaim 16 (some ⟨.B, 1, false⟩)
     s.store.claims[configClaim] = some ⟨.B, 1, false⟩ ∧ s.clock.seconds < 59 ∧ (s.port .B).mask[3] = true ∧
       ((after .secondEvent s).port .B).noticesLost = false) ∧
      (let s := { atMinute 0 with store := overridden.store }
       s.store.overrides[(15 : Zone)].hold = some ⟨210, false, .duration 1, .B⟩ ∧ 59 ≤ s.clock.seconds ∧
         s.arbiter.carrying = none ∧ s.arbiter.waiting = ⟨none, none, none, none, none⟩ ∧
         (s.port .A).mask[2] = true ∧ ((after .secondEvent s).port .A).noticesLost = false) ∧
      (let s := { withUnit (.active 4 .sensor) with
         clock := { Clock.reset with ticks := 299 * 32768, secondsTaken := 299 } }
       s.report.registry[(31 : UnitIx)] = some (aUnit (.active 4 .sensor)) ∧
         (aUnit (.active 4 .sensor)).lastReport = some 0 ∧ s.clock.seconds < 59 ∧
         (aUnit (.active 4 .sensor)).freshness = .fresh ∧
         s.taken.staleAge ≤ s.ticksAt ((s.clock.secondsTaken + 1) * 32768) / 32768 - 0 ∧
         s.taken.staleAge < s.taken.lostAge ∧ (s.port .A).mask[6] = true ∧ (s.port .A).mask[7] = true) := by
  decide +kernel

theorem test_witness_ALoopEventEvaluatesEveryZone :
    ∀ z : Zone, frostEntry Machine.State.reset.zones[z] Machine.State.reset.taken.frostFloor = false := by
  decide +kernel

theorem test_witness_ZonesAreEvaluatedAndServed :
    (let s := { Machine.State.reset with demand := { DemandUnit.reset with zoneEvents := [15], servedRecompute := true } }
     (15 : Zone) ∈ s.demand.zoneEvents ∧ s.demand.servedRecompute = true) := by
  decide +kernel

theorem test_witness_DemandAndCallFollowTheirTables :
    0 < 1 ∧ (200 : Int) ≤ 200 ∧ (199 : Int) + 1 ≤ 200 ∧ ((199 : Int) < 200 ∧ (200 : Int) < 199 + 2) ∧
      (0 : Nat) + 5 ≤ 5 ∧ (20 : Nat) ≤ 20 ∧ (19 : Nat) < 20 ∧ (5 : Nat) ≤ 5 ∧ (5 : Nat) < 6 ∧
      (let z : ZoneRecord := { ZoneRecord.reset with serviceMode := .inService, served := true, demand := 100 }
       (0 : Nat) < 1 ∧ z.demand ≤ 100 ∧ z.served = true ∧ z.serviceMode ≠ .unused) ∧
      ZoneRecord.reset.served = false ∧ ZoneRecord.reset.serviceMode = .unused := by
  decide

def watchedSettings : ContactSettings :=
  { ContactSettings.reset with enable := true, debounce := 1, openEdgeNotice := true, closeEdgeNotice := true }

/-- Input 15 enabled with debounce 1, its working fields as given. -/
def watched (i : InputWork) : Machine.State :=
  { Machine.State.reset with
    taken := { Params.reset with contacts := Params.reset.contacts.set (15 : Zone) watchedSettings }
    contacts := { ContactMonitor.reset with inputs := ContactMonitor.reset.inputs.set (15 : Zone) i } }

theorem watched_sound (i : InputWork) : (watched i).arbiterSound := arbiterSound_of (fun _ => rfl) rfl rfl rfl

theorem test_witness_ContactSamplesAreJudged :
    (∀ i, (watched i).arbiterSound ∧ (watched i).arbiterIdle) ∧
      (let s := watched InputWork.reset
       let t := after (.sampleEvent 0) s
       (∀ z : Zone, (t.contacts.inputs[z]).windowAsserted = (s.contacts.inputs[z]).windowAsserted) ∧
         (t.contacts.inputs[(15 : Zone)]).stableState ≠ (s.contacts.inputs[(15 : Zone)]).stableState ∧
         s.taken.contacts[(15 : Zone)].openEdgeNotice = true ∧ (s.port .A).mask[4] = true ∧
         (t.port .A).noticesLost = false) ∧
      (let i : InputWork := ⟨.isOpen, 0, some 239, false⟩
       let s := watched i
       s.taken.contacts[(15 : Zone)].enable = true ∧ (s.contacts.inputs[(15 : Zone)]).openTimer = some 239 ∧
         4 * s.taken.contacts[(15 : Zone)].windowDelay ≤ 239 + 1 ∧
         readContact s.taken.contacts[(15 : Zone)].polarity ((0 : BitVec 16).getLsbD 15) =
           (s.contacts.inputs[(15 : Zone)]).stableState ∧
         s.contacts.pendingOrders = [] ∧ s.store.overrides[(15 : Zone)].window = false ∧
         (∀ y : Zone, y ≠ 15 → s.taken.contacts[y].enable = false) ∧
         ((watched { i with windowAsserted := true }).contacts.inputs[(15 : Zone)]).windowAsserted = true) :=
  ⟨fun i => ⟨watched_sound i, rfl, rfl⟩, by decide +kernel⟩

/-- A Contact Monitor with orders waiting. -/
def ordering (orders : List WindowOrder) (w : WaitingSet) : Machine.State :=
  { contended w with contacts := { ContactMonitor.reset with pendingOrders := orders } }

theorem test_witness_AWindowOrderCancelsIsPlacedOrWaits :
    (∃ o ∈ (ordering [⟨3, .push⟩] ⟨none, none, none, none, none⟩).contacts.pendingOrders, o.zone = 3) ∧
      (∀ o ∈ (ordering [⟨3, .push⟩] ⟨none, none, none, none, none⟩).contacts.pendingOrders, o.zone ≠ 15) ∧
      (ordering [⟨3, .push⟩] ⟨none, none, none, none, none⟩).contacts.pendingOrders ≠ [] ∧
      (ordering [] ⟨none, none, none, some (.window 2 .push), none⟩).arbiter.waiting.contact.isSome = true ∧
      (ordering [] ⟨none, none, none, none, none⟩).contacts.pendingOrders = [] ∧
      (ordering [] ⟨none, none, none, none, none⟩).arbiter.waiting.contact = none ∧
      (ordering [] ⟨none, none, none, none, none⟩).arbiter.carrying.isSome = true ∧
      Machine.State.reset.arbiter.carrying = none ∧
      Machine.State.reset.arbiter.waiting = ⟨none, none, none, none, none⟩ ∧
      Machine.State.reset.contacts.pendingOrders = [] := by
  decide +kernel

/-- A frame on the line with the part's own address 0x10, and how full the receive queue is. -/
def following (mode : RxMode) (bytes : List Byte) (records : Nat) : Machine.State :=
  { Machine.State.reset with
    bus := { RoomBus.reset with line := .busy, rx := some ⟨mode, bytes, 0x10⟩ }
    report := { ReportProcessor.reset with
      queue := List.replicate records ⟨0x24, .boostCancel, 0⟩, reserved := mode == .reserved } }

theorem test_witness_TheLineIsFollowedAndAnAddressedFrameReserves :
    Machine.State.reset.bus.errState = .normal ∧ Machine.State.reset.bus.line = .gap ∧
      Machine.State.reset.bus.line ≠ .busy ∧ (following .notOwn [0x20] 0).bus.rx = some ⟨.notOwn, [0x20], 0x10⟩ ∧
      (following .admitted [0x10] 0).bus.rx = some ⟨.admitted, [0x10], 0x10⟩ ∧
      ({ RoomBus.reset with errState := .stuck } : RoomBus).errState ≠ .normal ∧
      (let s := following .awaitingDest []
       (s 10).receiveCount < 16 ∧ (s 15).receiveCount < 16 ∧ 16 ≤ (s 16).receiveCount ∧
         (0x10 : Byte) = (s 11).taken.ownAddress ∧ (0x11 : Byte) ≠ (s 11).taken.ownAddress ∧
         (s 11).report.holdOff = .flowing ∧ (s 11).taken.holdoffLevel ≤ (s 11).report.queue.length + 1 ∧
         (s 11).bus.control = none) := by
  decide +kernel

theorem test_witness_holdOffStays :
    (following .awaitingDest [] 10).holdOffStays ((following .awaitingDest [] 10).report.queue.length + 1) :=
  (by decide +kernel : (following .awaitingDest [] 10).report.queue.length + 1 < 12)

theorem test_witness_ReceivedFramesAreJudgedByteByByte :
    (following .reserved [0x10] 0).bus.errState = .normal ∧
      (following .reserved [0x10] 0).bus.rx = some ⟨.reserved, [0x10], 0x10⟩ ∧
      (0x08 ≤ (0x08 : Byte).toNat ∧ (0x77 : Byte).toNat ≤ 0x77 ∧ (0x08 : Byte) ≠ 0x10) ∧
      ¬ 0x08 ≤ (0x07 : Byte).toNat ∧ ¬ (0x78 : Byte).toNat ≤ 0x77 ∧ (3 : Byte).toNat ≤ 3 ∧ ¬ (4 : Byte).toNat ≤ 3 ∧
      ([0x01] : List Byte).length < (2 : Byte).toNat ∧
      (following .notOwn [0x20] 0).bus.rx = some ⟨.notOwn, [0x20], 0x10⟩ ∧
      (let payload : List Byte := [0x00, 0xC9]
       (following .reserved (0x10 :: 0x24 :: 0 :: 2 :: payload) 0).bus.rx =
           some ⟨.reserved, 0x10 :: 0x24 :: 0 :: 2 :: payload, 0x10⟩ ∧
         payload.length = (2 : Byte).toNat ∧ payloadOf 0 payload = some (.temp 201 none) ∧
         crc8 (0x10 :: 0x24 :: 0 :: 2 :: payload) + 1 ≠ crc8 (0x10 :: 0x24 :: 0 :: 2 :: payload)) := by
  decide +kernel

theorem test_witness_holdOffStaysAtARewind : (following .reserved [0x10, 0x24, 2] 11).holdOffStays 11 :=
  (by decide : 11 < 12)

theorem test_witness_lengthsOfPayloads :
    lengthFits 0 2 ∧ lengthFits 0 3 ∧ ¬ lengthFits 0 4 ∧ lengthFits 1 3 ∧ lengthFits 2 0 ∧ lengthFits 3 5 ∧
      ¬ lengthFits 4 0 := by
  unfold lengthFits
  decide

/-- The part's own attempt in transmission, with its frames. -/
def attempting (source : Source) (outbound : List OutFrame) (control : Option ControlFrame) : Machine.State :=
  { Machine.State.reset with bus := { RoomBus.reset with
      line := .busy, attempt := some ⟨source, 0x10⟩, outbound := outbound, control := control } }

def anAck : OutFrame := ⟨.joinAck 0x24 none, 6⟩

theorem test_witness_BusErrorsAreNoticedAndRecovered :
    (following .reserved [0x10, 0x24] 0).bus.errState = .normal ∧ (following .reserved [0x10, 0x24] 0).bus.line = .busy ∧
      (following .reserved [0x10, 0x24] 0).bus.attempt = none ∧
      (attempting .outbound [anAck] none).bus.attempt = some ⟨.outbound, 0x10⟩ ∧
      (attempting .outbound [anAck] none).bus.outbound = [anAck] ∧
      (let s := following .reserved [0x10, 0x24] 0
       (s.port .A).mask[12] = true ∧ ((after (.busError true 15) s).port .A).noticesLost = false ∧
         ((after (.stuckBus .both) s).port .A).noticesLost = false) ∧
      (let stuck := after (.stuckBus .clock) .reset
       let high := after .busWiresHigh stuck
       stuck.bus.errState = .stuck ∧ high.bus.errState = .recovering ∧ high.bus.syncing = false ∧
         (after (.sync true) high).bus.errState = .recovering ∧ (after (.sync true) high).bus.syncing = true) := by
  decide +kernel

/-- A free bus with frames to send. -/
def toSend (outbound : List OutFrame) (control : Option ControlFrame) (backoff : Option Nat) : Machine.State :=
  { Machine.State.reset with bus := { RoomBus.reset with
      line := .free, outbound := outbound, control := control, controlBackoff := backoff, outboundBackoff := backoff } }

theorem test_witness_AnAttemptBeginsAndEnds :
    (toSend [anAck] (some ⟨.holdOff, 0⟩) none).bus.errState = .normal ∧
      (toSend [anAck] (some ⟨.holdOff, 0⟩) none).bus.line = .free ∧
      (toSend [anAck] (some ⟨.holdOff, 0⟩) none).bus.attempt = none ∧
      ((toSend [anAck] (some ⟨.holdOff, 0⟩) none).bus.control).isSome = true ∧
      (toSend [anAck] none none).bus.control = none ∧ (toSend [anAck] none none).bus.outbound ≠ [] ∧
      (toSend [anAck] none none).bus.outboundBackoff = none ∧
      ((toSend [anAck] (some ⟨.holdOff, 0⟩) (some 40)).bus.controlBackoff).isSome = true ∧
      ((toSend [anAck] none (some 40)).bus.outboundBackoff).isSome = true ∧
      (attempting .outbound [anAck] none).bus.attempt = some ⟨.outbound, 0x10⟩ ∧
      (attempting .outbound [anAck] none).bus.outbound = anAck :: [] ∧
      (attempting .control [] (some ⟨.resume, 0⟩)).bus.attempt = some ⟨.control, 0x10⟩ ∧
      (attempting .control [] (some ⟨.resume, 0⟩)).bus.control = some ⟨.resume, 0⟩ ∧
      (attempting .control [] (some ⟨.resume, 0⟩)).bus.pendingControl = none := by
  decide +kernel

theorem test_witness_AFailedAttemptBacksOffOrDrops :
    (attempting .outbound [anAck] none).bus.control = none ∧
      (attempting .outbound [anAck] none).bus.errState = .normal ∧ anAck.body.dest ≠ 0 ∧ anAck.failures < 7 ∧
      7 ≤ ({ anAck with failures := 7 } : OutFrame).failures ∧
      ((attempting .outbound [anAck] none).port .A).mask[11] = true ∧
      ((attempting .outbound [anAck] none).port .A).notices.length < 32 ∧
      (let s := { toSend [anAck] none none with bus := { (toSend [anAck] none none).bus with
         line := .gap, deferral := some ⟨.outbound, 8192⟩ } }
       s.bus.deferral = some ⟨.outbound, 8192⟩ ∧ s.bus.line ≠ .free ∧ s.bus.errState = .normal) ∧
      (toSend [anAck] none (some 66)).bus.outboundBackoff = some 66 ∧
      (toSend [anAck] none (some 66)).bus.attempt = none := by
  decide +kernel

theorem test_witness_FramesToSendArePlacedByTheirTables :
    (toSend [] none none).bus.control = none ∧
      (attempting .control [] (some ⟨.holdOff, 0⟩)).bus.attempt = some ⟨.control, 0x10⟩ ∧
      (attempting .control [] (some ⟨.holdOff, 0⟩)).bus.pendingControl = none ∧
      ({ (attempting .control [] (some ⟨.holdOff, 0⟩)).bus with pendingControl := some .resume }.pendingControl =
        some ControlKind.resume ∧ ControlKind.resume ≠ .holdOff) ∧
      (toSend [⟨.announce 2 200 .base, 3⟩] none none).bus.attempt = none ∧
      (toSend [⟨.announce 2 200 .base, 3⟩] none none).bus.outbound = [] ++ ⟨.announce 2 200 .base, 3⟩ :: [] ∧
      (toSend (List.replicate 7 anAck) none none).bus.outbound.length < 8 ∧
      8 ≤ (toSend (List.replicate 8 anAck) none none).bus.outbound.length ∧
      (∀ f ∈ (toSend (List.replicate 8 anAck) none none).bus.outbound, f.isAnnounce = false) ∧
      (toSend (List.replicate 7 anAck ++ [⟨.announce 3 200 .base, 0⟩]) none none).bus.outbound =
        List.replicate 7 anAck ++ ⟨.announce 3 200 .base, 0⟩ :: [] := by
  decide +kernel

theorem test_witness_noAnnounceOfTheZoneWaits :
    ∀ f ∈ (toSend (List.replicate 8 anAck) none none).bus.outbound, ∀ x y, f.body ≠ .announce 2 x y := by
  intro f h x y e
  have eq : f = anAck := List.eq_of_mem_replicate h
  subst eq
  cases e

theorem test_witness_noControlAttempt : ∀ src, (toSend [] (some ⟨.holdOff, 2⟩) none).bus.attempt ≠ some ⟨.control, src⟩ := by
  intro src h
  cases h

/-- One record at the head of the receive queue, and unit 31 in the registry. -/
def received (payload : Payload) (r : Option UnitRecord) (raised : Bool) : Machine.State :=
  { Machine.State.reset with report := { ReportProcessor.reset with
      queue := [⟨0x24, payload, 0⟩], headRaised := raised
      registry := ReportProcessor.reset.registry.set (31 : UnitIx) r } }

theorem received_stays (payload : Payload) (r : Option UnitRecord) (raised : Bool) :
    (received payload r raised).holdOffStays ((received payload r raised).receiveCount - 1) :=
  (by decide : 0 < 12)

theorem test_witness_TempAndJoinRecordsAreProcessedWhole :
    (let s := received (.temp 201 none) (some (aUnit (.active 4 .sensor))) false
     s.report.queue = ⟨0x24, .temp 201 none, 0⟩ :: [] ∧ unitAt 0x24 s = some 31 ∧
       s.report.registry[(31 : UnitIx)] = some (aUnit (.active 4 .sensor)) ∧
       (aUnit (.active 4 .sensor)).state = .active 4 .sensor ∧ s.taken.plausLow ≤ -100 ∧ 450 ≤ s.taken.plausHigh ∧
       (-101 : Int) < s.taken.plausLow ∧ s.taken.plausHigh < 451 ∧ s.bus.outbound.length < 8) ∧
      unitAt 0x24 (received (.temp 201 none) none false) = none ∧
      (aUnit .pending).state = .pending ∧
      min 3 ((aUnit (.active 4 .sensor)).implausibleCount + 1) = 3 ∧ (aUnit (.active 4 .sensor)).faulty = false ∧
      (let s := received (.join 1 7) none false
       s.report.queue = ⟨0x24, .join 1 7, 0⟩ :: [] ∧ s.report.registry[(0 : UnitIx)] = none ∧
         ∀ v : UnitIx, v < 0 → (s.report.registry[v]).isSome = true) ∧
      (∀ u : UnitIx, ((Vector.replicate 32 (some (aUnit .pending)))[u]).isSome = true) ∧
      (aUnit .pending).serial = 7 ∧ (aUnit .pending).serial ≠ 8 := by
  decide +kernel

/-- Zone 4 in service, or its HOLD locked. -/
def serving (mode : ServiceMode) (locked : Bool) (s : Machine.State) : Machine.State :=
  (s.modZone 4 fun z => { z with serviceMode := mode }).modStack 4 fun k =>
    { k with hold := if locked then some ⟨210, true, .indefinite, .A⟩ else none }

theorem test_witness_BoostRecordsGoThroughTheProgramStore :
    (let s := received (.boost 255 15) (some (aUnit (.active 4 .panel))) false
     s.report.queue = ⟨0x24, .boost 255 15, 0⟩ :: [] ∧ s.report.storeOrders = [] ∧ s.bus.outbound.length < 8 ∧
       s.report.headRaised = false ∧ unitAt 0x24 s = some 31 ∧
       s.report.registry[(31 : UnitIx)] = some (aUnit (.active 4 .panel)) ∧ s.arbiter.carrying = none ∧
       s.arbiter.waiting = ⟨none, none, none, none, none⟩ ∧
       (serving .unused false s).zones[(4 : Zone)].serviceMode ≠ .inService ∧
       (serving .inService true s).zones[(4 : Zone)].serviceMode = .inService ∧
       (serving .inService true s).store.overrides[(4 : Zone)].hold.any (·.locked) = true ∧
       (serving .inService false s).store.overrides[(4 : Zone)].hold.any (·.locked) = false ∧
       (after .boostRecord s).report.headRaised = true ∧
       (after .boostRecord s).arbiter.carrying = some ⟨.boost 31 4 255 15, .boosted .zoneOff⟩) ∧
      (let s := received .boostCancel (some (aUnit (.active 4 .panel))) false
       s.report.queue = ⟨0x24, .boostCancel, 0⟩ :: [] ∧
         (after .boostCancelRecord s).arbiter.carrying = some ⟨.boostCancel 31, .done⟩ ∧
         (after .boostCancelRecord s).arbiter.waiting = ⟨none, none, none, none, none⟩) ∧
      (contended ⟨none, none, none, none, none⟩).arbiter.carrying.isSome = true ∧
      (contended ⟨none, none, none, none, none⟩).arbiter.waiting.report = none := by
  decide +kernel

theorem test_witness_noPanelUnit : ∀ (u : UnitIx) (r : UnitRecord) (z : Zone),
    unitAt 0x24 (received (.boost 20 30) none false) = some u →
    (received (.boost 20 30) none false).report.registry[u] = some r → r.state ≠ .active z .panel := by
  intro u r z h
  have none' : unitAt 0x24 (received (.boost 20 30) none false) = none := by decide +kernel
  rw [none'] at h
  cases h

/-- Channel 23 of zone 15 moving in slot 2, at a tick of the crystal. -/
def moving (e : Entry) (m : Movement) (ticks : Nat) : Machine.State :=
  { ((Machine.State.reset.modChannel 23 fun _ =>
      { aChannel (some 15) .moving true [e] with inProgress := some ⟨e, 0, 0, some m⟩ }).setSlot 2 (some 23)) with
    clock := { Clock.reset with ticks := ticks } }

def closing : Movement := ⟨some 60, 0, 2, 90⟩

def opening : Movement := ⟨some 60, 100, 2, 90⟩

theorem test_witness_AStallIsJudgedByTheEstimate :
    closing.start = some 60 ∧ 1 ≤ closing.stroke ∧ closing.target ≤ 60 ∧ 60 ≤ opening.target ∧
      (Machine.State.reset.valves.slots[(2 : Slot)] = none) ∧
      (let s := moving (.moveTo 0 .service) closing 16384
       s.valves.slots[(2 : Slot)] = some 23 ∧ closing.slot = 2 ∧
         (s.channel 23).inProgress = some ⟨.moveTo 0 .service, 0, 0, some closing⟩ ∧ 0 + 16384 ≤ s.clock.ticks ∧
         16383 < 0 + 16384) ∧
      (moving .seekClosed ⟨none, 0, 2, 90⟩ 16384).valves.slots[(2 : Slot)] = some 23 ∧
      (closing.estimate (1327104 - 0) = some 15 ∧ closing.target < 60 ∧ 15 ≤ 15) ∧
      (closing.estimate (1297613 - 0) = some 16 ∧ 15 < 16) ∧
      (opening.estimate (737280 - 0) = some 85 ∧ 60 < opening.target ∧ 85 ≤ 85) ∧
      (opening.estimate (707789 - 0) = some 84 ∧ 84 < 85) ∧
      (23 : Channel) ∉ (moving (.moveTo 0 .service) closing 16384).valves.waiting ∧
      ((moving (.moveTo 0 .service) closing 1297613).port .A).mask[13] = true ∧
      ((after (.stall 2) (moving (.moveTo 0 .service) closing 1297613)).port .A).noticesLost = false := by
  decide +kernel

/-- Channel 23 dwelling with every slot taken. -/
def dwelling (rest : List Entry) : Machine.State :=
  slotsTaken 3 (Machine.State.reset.modChannel 23 fun _ =>
    { aChannel (some 15) .dwelling true (.dwell 5 :: rest) with inProgress := some ⟨.dwell 5, 0, 0, none⟩ })

theorem test_witness_MovementsAndDwellsEnd :
    (let s := moving (.moveTo 0 .service) closing 0
     (s.channel 23).inProgress = some ⟨.moveTo 0 .service, 0, 0, some closing⟩ ∧ closing.start = some 60 ∧
       s.valves.waiting = [] ∧ (s.channel 23).urgent = none ∧ (s.channel 23).queue = [.moveTo 0 .service]) ∧
      (let s := moving .seekClosed ⟨none, 0, 2, 90⟩ 0
       (s.channel 23).inProgress = some ⟨.seekClosed, 0, 0, some ⟨none, 0, 2, 90⟩⟩ ∧
         (s.channel 23).queue = [.seekClosed] ∧ (s.port .A).mask[15] = true ∧ (s.port .A).notices.length < 32) ∧
      (let s := dwelling [.moveTo 10 .service]
       (s.channel 23).inProgress = some ⟨.dwell 5, 0, 0, none⟩ ∧
         (s.channel 23).queue = .dwell 5 :: [.moveTo 10 .service] ∧ (s.channel 23).urgent = none ∧
         (∀ i : Slot, (s.valves.slots[i]).isSome = true) ∧ (s.channel 23).position ≠ some 10) ∧
      ((dwelling []).channel 23).queue = [.dwell 5] ∧
      ((dwelling [.mark .B 7]).channel 23).queue = .dwell 5 :: [.mark .B 7] := by
  decide +kernel

theorem test_witness_MovesArePlacedByTheirTables :
    (Machine.State.reset.channel 23).zone = none ∧
      (let r := (moving (.moveTo 0 .service) closing 0).channel 23
       r.zone ≠ none ∧ r.calibrated = true ∧ r.state ≠ .fault ∧ r.headStarted = true ∧ r.queue.length < 8 ∧
         r.inProgress.isSome = true) ∧
      (let q := [Entry.moveTo 0 .service] ++ .moveTo 30 .loop :: [.seekClosed]
       let r := { aChannel (some 15) .moving true q with inProgress := some ⟨.moveTo 0 .service, 0, 0, some closing⟩ }
       r.queue = [Entry.moveTo 0 .service] ++ .moveTo 30 .loop :: [.seekClosed] ∧
         (if r.headStarted then 1 else 0) ≤ [Entry.moveTo 0 .service].length) ∧
      8 ≤ (List.replicate 8 Entry.seekClosed).length ∧
      (let r := aChannel (some 15) .waiting true [.moveTo 0 .loop]
       r.calibrated = true ∧ r.state = .waiting ∧ r.inProgress = none) ∧
      (∀ i : Slot, ((slotsTaken 3 .reset).valves.slots[i]).isSome = true) ∧
      (let s := moving (.moveTo 0 .service) closing 1297613
       closing.estimate (s.clock.ticks - 0) = some 16 ∧ 16 ≠ 100 ∧ (s.channel 23).state = .moving) := by
  decide +kernel

/-- An exchange whose reply window has stood open for a while. -/
def exchanging (f : Firing) (ticks : Nat) (link : BurnerLink) : Machine.State :=
  { Machine.State.reset with
    clock := { Clock.reset with ticks := ticks }
    firing := f
    link := { link with exchange := .window 0 } }

theorem test_witness_ExchangesAndTheirMisses :
    Machine.State.reset.link.exchange = .none ∧
      (after .exchange .reset).link.exchange = .sending ∧
      (exchanging .reset 13108 .reset).link.exchange = .window 0 ∧
      (exchanging .reset 13108 .reset).clock.ticks ≤ 0 + 13108 ∧
      goodStatus? ⟨0, 0, 40, 30, 0, crc8 [2, 5, 0, 0, 40, 30, 0] + 1⟩ = none ∧
      (exchanging .reset 13108 .reset).link.rx = .quiet ∧
      min 255 (0 + 1) < (exchanging .reset 0 .reset).taken.linkMisses ∧
      (let s := exchanging .reset 0 { BurnerLink.reset with missCount := 2 }
       s.link.up = true ∧ s.taken.linkMisses ≤ min 255 (s.link.missCount + 1) ∧ (s.port .A).mask[17] = true ∧
         (s.port .A).mask[16] = true ∧ (s.port .A).notices.length < 31) ∧
      (exchanging .reset 0 { BurnerLink.reset with up := false }).link.up = false := by
  decide +kernel

def inState (state : FiringState) (offSince : Option Nat) (served : Bool) : Firing :=
  { Firing.reset with
    state := state
    offSince := offSince
    runoutTimer := if state = .runout then some 40 else none
    lockoutPumpTimer := if state = .lockout then some 40 else none
    picture := { Firing.reset.picture with
      served := Firing.reset.picture.served.set 15 served
      flowReady := Firing.reset.picture.flowReady.set 15 served } }

theorem minOffOver_of {s : Machine.State} (h : s.firing.offSince = none) : s.minOffOver := by
  intro t e
  rw [h] at e
  cases e

theorem notMinOffOver_of {s : Machine.State} {t : Nat} (h : s.firing.offSince = some t)
    (early : ¬ t + s.taken.minOff ≤ s.now) : ¬ s.minOffOver := fun h2 => early (h2 t h)

theorem mayFire_of {s : Machine.State} (h1 : s.firing.dump = false) (h2 : s.firing.picture.served[15] = true)
    (h3 : s.firing.picture.flowReady[15] = true) : s.mayFire := ⟨h1, 15, h2, .inl h3⟩

theorem notMayFire_of {s : Machine.State} (h : ∀ z : Zone, s.firing.picture.served[z] = false) : ¬ s.mayFire := by
  rintro ⟨-, z, served, -⟩
  rw [h z] at served
  cases served

theorem test_witness_AGoodStatusIsJudgedForLockoutAndFlame :
    (∀ f, (exchanging f 13108 .reset).link.exchange = .window 0 ∧ (exchanging f 13108 .reset).clock.ticks ≤ 0 + 13108 ∧
      (exchanging f 13108 .reset).link.rx = .quiet ∧ (exchanging f 13108 .reset).link.up = true) ∧
      (125 : Byte).toNat ≤ 125 ∧ (87 : Byte).toNat < (exchanging .reset 0 .reset).taken.dumpThreshold ∧
      (exchanging .reset 0 .reset).taken.dumpThreshold < (79 : Byte).toNat + 10 ∧
      (inState .requesting none true).state = .requesting ∧ (inState .firing none true).state = .firing ∧
      (inState .lockout (some 0) true).state = .lockout ∧ (inState .runout (some 0) true).state ≠ .lockout ∧
      ¬ (exchanging (inState .lockout (some 0) true) 13108 .reset).minOffOver ∧
      (exchanging (inState .lockout none true) 13108 .reset).minOffOver ∧
      (exchanging (inState .lockout none true) 13108 .reset).mayFire ∧
      ¬ (exchanging (inState .lockout none false) 13108 .reset).mayFire :=
  ⟨fun _ => ⟨rfl, Nat.le_refl _, rfl, rfl⟩, by decide, by decide +kernel, by decide +kernel, rfl, rfl, rfl,
    by decide, notMinOffOver_of rfl (by decide +kernel), minOffOver_of rfl,
    mayFire_of rfl (by decide +kernel) (by decide +kernel), notMayFire_of (by decide +kernel)⟩

theorem test_witness_AGoodStatusIsJudgedForDumpAndLink :
    (let s := exchanging (inState .firing none true) 13108 .reset
     s.link.exchange = .window 0 ∧ s.link.up = true ∧ s.firing.state ≠ .lockout ∧ s.firing.dump = false ∧
       s.taken.dumpThreshold ≤ (88 : Byte).toNat ∧ 1 ≤ s.taken.runoutTime ∧ (s.port .A).mask[19] = true ∧
       (let flame := encFlag true
        let frame : StatusBytes := ⟨flame, 0, 88, 60, 0, crc8 [2, 5, flame, encFlag false, 88, 60, 0]⟩
        ((after (.status frame) s).port .A).noticesLost = false)) ∧
      (let f := { inState .runout (some 0) true with dump := true }
       f.dump = true ∧ (78 : Byte).toNat + 10 ≤ Params.reset.dumpThreshold ∧ f.state = .runout ∧
         ¬ (79 : Byte).toNat + 10 ≤ Params.reset.dumpThreshold) ∧
      (let s := exchanging (inState .linkDown (some 0) true) 13108 { BurnerLink.reset with up := false, missCount := 3 }
       s.link.up = false ∧ s.firing.state = .linkDown ∧ (s.port .A).mask[18] = true ∧ (s.port .A).notices.length < 31) := by
  decide +kernel

theorem test_witness_downLinkBeforeMinOff :
    ¬ (exchanging (inState .linkDown (some 0) true) 13108 { BurnerLink.reset with up := false }).minOffOver :=
  notMinOffOver_of rfl (by decide +kernel)

theorem test_witness_FiringStateFollowsTimersTestsAndFrost :
    (let f := inState .runout (some 0) true
     f.state = .runout ∧ f.runoutTimer = some 40 ∧ f.frostSkip = false ∧ { f with frostSkip := true }.frostSkip = true) ∧
      ((inState .anticycle (some 0) true).state = .anticycle ∧ (inState .anticycle (some 0) true).offSince = some 0) ∧
      ((inState .lockout none true).state = .lockout ∧ (inState .lockout none true).lockoutPumpTimer = some 40) ∧
      (inState .off none true).state = .off ∧ (inState .requesting none false).state = .requesting ∧
      (inState .requesting none false).dump = false ∧ 1 ≤ Params.reset.runoutTime ∧
      { Params.reset with runoutTime := 0 }.runoutTime = 0 ∧ (inState .linkDown none true).state = .linkDown := by
  decide +kernel

theorem test_witness_firingPermittedAndMinOff :
    (exchanging (inState .off none true) 0 .reset).mayFire ∧
      ¬ (exchanging (inState .requesting none false) 0 .reset).mayFire ∧
      ¬ (exchanging (inState .runout (some 0) false) 0 .reset).minOffOver ∧
      (exchanging (inState .runout none false) 0 .reset).minOffOver :=
  ⟨mayFire_of rfl (by decide +kernel) (by decide +kernel), notMayFire_of (by decide +kernel),
    notMinOffOver_of rfl (by decide +kernel), minOffOver_of rfl⟩

theorem test_witness_EveryStepKeepsTheArbiterAndTheQueuesSound :
    Machine.State.reset.portsSound ∧ Machine.State.reset.busSound ∧ Machine.State.reset.arbiterSound ∧
      ∃ t, step .reset = .next t := by
  refine ⟨?_, ?_, arbiterSound_of (fun _ => rfl) rfl rfl rfl, _, rfl⟩
  · unfold State.portsSound PortState.sound
    decide +kernel
  · unfold State.busSound
    decide +kernel

theorem test_witness_EveryStepKeepsThePointPoolAndTheStacks :
    (listed full 448).poolSound ∧ Machine.State.reset.stacksSound ∧ ∃ t, step (listed full 448) = .next t := by
  refine ⟨?_, ?_, _, rfl⟩
  · unfold State.poolSound Store.listsSound
    decide +kernel
  · unfold State.stacksSound Stack.sound
    decide +kernel

theorem test_witness_EveryStepKeepsTargetsAndCalls :
    Machine.State.reset.targetsSound ∧ Machine.State.reset.callsSound ∧ ∃ t, step .reset = .next t := by
  refine ⟨?_, ?_, _, rfl⟩
  · unfold State.targetsSound Params.limitsSound
    decide +kernel
  · unfold State.callsSound
    decide +kernel

/-! ### Witnesses of single clauses -/

/-- CLAIM of an own claim with one count left: a second event before its completion does not end it. -/
theorem test_claimUnderWay_keepsItsCount :
    let s := Machine.State.reset.setClaim 16 (some ⟨.A, 1, false⟩)
    let m := after .secondEvent (after (.claim .A 16) s)
    s.portIdle .A ∧ (16 : Byte).toNat = configClaim.val ∧ s.store.claims[configClaim] = some ⟨.A, 1, false⟩ ∧
      s.clock.seconds < 59 ∧ m.store.claims[configClaim] = some ⟨.A, 1, false⟩ ∧
      (after .storeRequestComplete m).store.claims[configClaim] = some ⟨.A, 30, false⟩ :=
  ⟨⟨rfl, rfl⟩, by decide +kernel⟩

/-- A zone that leaves UNUSED with its values as they were, and a new primary unit. -/
theorem test_witness_settingAZone :
    editing.zones[(4 : Zone)].serviceMode = .unused ∧ editing.bus.outbound = [] ∧
      (some 9 : Option UnitIx) ≠ editing.zones[(4 : Zone)].primaryUnit ∧ (unresolved true).bus.outbound = [] ∧
      (unresolved true).zones[(5 : Zone)].serviceMode ≠ .unused ∧
      (after (.setZone .A 4 2 180 0xFF) editing).bus.outbound = [⟨.announce 4 180 .base, 0⟩] := by
  decide +kernel

/-- A pair that CONFIGURE would break, with the last item that names it, and the pairs before it whole. -/
theorem test_witness_aBrokenPair :
    let items : List ConfigItem := [⟨20, 0, 900⟩, ⟨0, 0, 60⟩, ⟨21, 0, 800⟩]
    let v := Params.reset.putAll items
    (∀ i ∈ items, itemNamed i = true ∧ itemInRange i = true) ∧ (items.map itemKey).Nodup ∧
      ¬ v.staleAge < v.lostAge ∧ v.callOff + 5 ≤ v.callOn ∧ items[2].param.toNat = 21 ∧
      configFault .reset items = some [2] := by
  decide +kernel

/-- New hold-off levels at a completion. -/
theorem test_witness_newHoldOffLevels :
    let s := { configured with written := { configured.written with holdoffLevel := 10, resumeLevel := 3 } }
    s.taken.holdoffLevel ≠ s.written.holdoffLevel ∧ s.taken.resumeLevel ≠ s.written.resumeLevel := by
  decide +kernel

/-- Three requests wait; the first after the parked requester is granted. -/
theorem test_witness_theRingWithThreeWaiting :
    let w : WaitingSet := ⟨some (.host .A .releaseTime), none, none, some (.window 2 .push), some (.minuteEval 4)⟩
    let a : Arbiter := ⟨w, none, .portB⟩
    a.next = some (.contact, .window 2 .push) ∧ a.waiting.get .contact = some (.window 2 .push) ∧
      (∀ q' ∈ [Requester.portA, .portB, .report, .contact, .clock], a.parked.after q' < a.parked.after .contact →
        a.waiting.get q' = none) ∧
      (contended w).arbiter.carrying = some ⟨.minuteEval 1, .done⟩ ∧
      (afterHandBack ⟨.minuteEval 1, .done⟩ (contended w)).arbiter.next = some (.portA, .host .A .releaseTime) := by
  decide

/-- The claim of a port that asks for it again. -/
theorem test_witness_aHolderAsks : ∃ s : Machine.State, s.asksFor .A configClaim ∧
    s.store.claims[configClaim] = some ⟨.A, 1, false⟩ :=
  ⟨after (.claim .A 16) (Machine.State.reset.setClaim 16 (some ⟨.A, 1, false⟩)),
    ⟨16, by decide, .inr (by decide +kernel)⟩, by decide +kernel⟩

theorem test_witness_noPortAsks (p : Port) (c : ClaimIx) : ¬ Machine.State.reset.asksFor p c := by
  rintro ⟨b, -, h | h⟩ <;> cases p <;> cases h

/-- Channel 23 of zone 15 at rest and open, a minute from an exercise. -/
def resting : Machine.State :=
  let s := Machine.State.reset.modChannel 23 fun _ =>
    { aChannel (some 15) .idle true [] with lastMoved := some 0, openConfirmed := true }
  let t := s.modZone 15 fun z => { z with flowReady := true, valveCount := 1 }
  { t with
    clock := { Clock.reset with ticks := 604800 * 32768, secondsTaken := 604799, minute := 179, seconds := 59, timeValid := true }
    firing := { t.firing with picture := { t.firing.picture with flowReady := t.firing.picture.flowReady.set 15 true } } }

/-- A Valve Drive Unit with no work is in order. -/
theorem valvesSound_of {s : Machine.State}
    (rest : ∀ c : Channel, (s.channel c).inProgress = none ∧ (s.channel c).queue = [] ∧ (s.channel c).urgent = none ∧
      (s.channel c).state = (s.channel c).restState ∧
      (s.channel c).openConfirmed = (s.channel c).judgeOpen s.taken.openThreshold)
    (slots : ∀ i : Slot, s.valves.slots[i] = none) (waiting : s.valves.waiting = [])
    (zones : ∀ z : Zone,
      (s.zones[z].flowReady = true ↔ ∃ c : Channel, (s.channel c).zone = some z ∧ (s.channel c).openConfirmed = true) ∧
      s.firing.picture.flowReady[z] = s.zones[z].flowReady ∧
      s.zones[z].valveCount = (allChannels.filter fun c => (s.channel c).zone = some z).length) :
    s.valvesSound := by
  have atRest : ∀ c : Channel, (s.channel c).state = .unassigned ∨ (s.channel c).state = .idle ∨
      (s.channel c).state = .uncalibrated := fun c => by
    obtain ⟨-, -, -, h, -⟩ := rest c
    rw [h, ChannelRecord.restState]
    split
    · exact .inl rfl
    · split
      · exact .inr (.inl rfl)
      · exact .inr (.inr rfl)
  refine ⟨fun c => ?_, ?_, fun c => ?_, zones⟩
  · obtain ⟨hp, hq, hu, hs, -⟩ := rest c
    refine ⟨by simp [ChannelRecord.queueSound, hq], ?_⟩
    unfold ChannelRecord.workSound
    rcases atRest c with h | h | h <;> simp only [h] at hs ⊢ <;> exact ⟨hp, hq, hu, hs⟩
  · refine ⟨fun i c h => by simp [slots i] at h, fun c h => ?_, by simp [waiting], fun c => ?_, fun _ => waiting⟩
    · rcases atRest c with e | e | e <;> simp [e] at h
    · rcases atRest c with e | e | e <;> simp [e, waiting]
  · obtain ⟨hp, -, -, -, ho⟩ := rest c
    rw [ho]
    unfold ChannelRecord.judgeOpen ChannelRecord.openAt
    cases (s.channel c).position <;> simp [hp, and_assoc]

theorem resting_sound : resting.valvesSound :=
  valvesSound_of (by decide +kernel) (by decide +kernel) (by decide +kernel) (by decide +kernel)

theorem test_witness_anExercise :
    resting.valvesSound ∧ resting.valves.waiting = [] ∧ (resting.clock.minute + 1) % 10080 % 1440 = 180 ∧
      resting.taken.exerciseEnable = true ∧ resting.clock.timeValid = true ∧ 59 ≤ resting.clock.seconds ∧
      (resting.channel 23).state = .idle ∧ (resting.channel 23).zone = some 15 ∧
      resting.zones[(15 : Zone)].callState = .idle ∧ (resting.channel 23).lastMoved = some 0 ∧
      0 + 604800 ≤ (after .minuteEvent resting).now ∧ (resting.channel 23).position ≠ some 100 ∧
      ((after .minuteEvent resting).channel 23).state = .moving :=
  ⟨resting_sound, by decide +kernel⟩

/-- A BOOST of one remaining minute, and a STALE unit at lost_age. -/
theorem test_witness_boostAndStaleUnitRunOut :
    (let s := { atMinute 0 with store := overridden.store }
     s.store.overrides[(15 : Zone)].boost = some ⟨15, 1, 3⟩ ∧
       ((after .secondEvent s).port .B).noticesLost = false) ∧
      (let r := { aUnit (.active 4 .sensor) with freshness := .stale }
       let s := { (claimed .A 16).setUnit 31 (some r) with
         clock := { Clock.reset with ticks := 899 * 32768, secondsTaken := 899 } }
       s.report.registry[(31 : UnitIx)] = some r ∧ r.lastReport = some 0 ∧ s.clock.seconds < 59 ∧
         s.taken.lostAge ≤ s.ticksAt ((s.clock.secondsTaken + 1) * 32768) / 32768 - 0 ∧ (s.port .A).mask[7] = true) := by
  decide +kernel

/-- The five steps of a zone's measurement: units of zone 4 with their freshness, primary_unit 31 or none. -/
def measuring (first last : Freshness) (primary : Option UnitIx) : Machine.State :=
  let s := (Machine.State.reset.setUnit 2 (some { aUnit (.active 4 .sensor) with freshness := first, lastTemp := some 190 })).setUnit
    31 (some { aUnit (.active 4 .panel) with freshness := last })
  s.modZone 4 fun z => { z with primaryUnit := primary }

theorem test_witness_measurements :
    measurement 4 (measuring .fresh .fresh (some 31)) = (some 201, .fresh, some 31) ∧
      measurement 4 (measuring .fresh .stale (some 31)) = (some 190, .fresh, some 2) ∧
      measurement 4 (measuring .stale .stale (some 31)) = (some 201, .aged, some 31) ∧
      measurement 4 (measuring .stale .stale none) = (some 190, .aged, some 2) ∧
      measurement 4 (measuring .lost .lost (some 31)) = (none, .blind, none) := by
  decide +kernel

/-- Frost thresholds: 4.0 degrees enters and 5.5 leaves at a floor of 5.0. -/
theorem test_witness_frostThresholds :
    let z := fun (m : Int) (on : Bool) =>
      { ZoneRecord.reset with serviceMode := .inService, measureState := .fresh, measured := some m, frostEmergency := on }
    frostEntry (z 40 false) 50 = true ∧ frostEntry (z 41 false) 50 = false ∧ frostExit (z 55 true) 50 = true ∧
      frostExit (z 54 true) 50 = false := by
  decide

/-- A rewind or a record taken at resume_level orders RESUME. -/
theorem test_resumeIsOrdered :
    (let s := { following .reserved [0x10, 0x24] 4 with
       report := { (following .reserved [0x10, 0x24] 4).report with holdOff := .held } }
     let t := after (.receivedByte 4) s
     t.report.holdOff = .flowing ∧ t.bus.control = some ⟨.resume, 0⟩) ∧
      (let s := { Machine.State.reset with report := { ReportProcessor.reset with
         holdOff := .held, queue := List.replicate 5 ⟨0x24, .temp 200 none, 0⟩ } }
       let t := after .tempRecord s
       t.report.holdOff = .flowing ∧ t.bus.control = some ⟨.resume, 0⟩) := by
  decide +kernel

/-- A recovery with its SYNC begun, and a deferral wait held since before. -/
def syncing : Machine.State :=
  let b := (toSend [anAck] none none).bus
  let s := { toSend [anAck] none none with bus := { b with line := .gap, deferral := some ⟨.outbound, 8192⟩ } }
  after (.sync true) (after .busWiresHigh (after (.stuckBus .both) s))

theorem test_witness_aRecoveryInterrupted :
    syncing.bus.errState = .recovering ∧ syncing.bus.syncing = true ∧ syncing.bus.attempt = none ∧
      syncing.bus.deferral = some ⟨.outbound, 8192⟩ ∧ syncing.bus.control = none ∧ syncing.bus.outbound ≠ [] ∧
      syncing.bus.outboundBackoff = none ∧ (after .recoveryInterrupted syncing).bus.errState = .stuck ∧
      (after (.sync false) syncing).bus.errState = .stuck ∧
      (after .syncComplete syncing).bus.deferral = some ⟨.outbound, 8192 + 656⟩ := by
  decide +kernel

/-- Frames to send of every kind. -/
theorem test_witness_framesToSend :
    (toSend [] (some ⟨.holdOff, 3⟩) none).bus.control = some ⟨.holdOff, 3⟩ ∧
      (toSend [] (some ⟨.resume, 0⟩) none).bus.control = some ⟨.resume, 0⟩ ∧
      (toSend [⟨.announce 15 350 .floor, 0⟩] none none).bus.outbound = [⟨.announce 15 350 .floor, 0⟩] ∧
      (toSend [⟨.boostReply 0x77 .unknownUnit, 0⟩] none none).bus.outbound = [⟨.boostReply 0x77 .unknownUnit, 0⟩] ∧
      (toSend [anAck] none none).sentBytes ⟨.outbound, 0x10⟩ =
        [0x24, 0x10, 7, 1, 0xFF, crc8 [0x24, 0x10, 7, 1, 0xFF]] := by
  decide +kernel

/-- In RUNOUT with zone 15 in the runout set, channel 23 at 60 %. -/
def runningOut : Machine.State :=
  { resting with firing := { resting.firing with state := .runout, runoutSet := [15] } }

theorem test_witness_theRunoutClamp :
    runningOut.firing.state = .runout ∧ 19 < runningOut.taken.openThreshold ∧
      (runningOut.channel 23).zone = some 15 ∧ (15 : Zone) ∈ runningOut.firing.runoutSet ∧
      effectiveTarget runningOut 23 19 .loop = 20 ∧ effectiveTarget runningOut 23 20 .loop = 20 ∧
      effectiveTarget runningOut 23 0 .service = 0 ∧ effectiveTarget resting 23 19 .loop = 19 := by
  decide +kernel

theorem test_witness_aLoopMoveAtRest :
    (let s := slotsTaken 3 runningOut
     (s.channel 23).state = .idle ∧ (s.channel 23).queue = [] ∧ (s.channel 23).urgent = none ∧
       (∀ i : Slot, (s.valves.slots[i]).isSome = true) ∧
       (s.channel 23).position = some (effectiveTarget s 23 60 .loop) ∧
       (s.channel 23).position ≠ some (effectiveTarget s 23 0 .loop)) ∧
      (let s := after (.movementCompletion 0) (slotsTaken 2 (placeLoopMove 23 0 (slotsTaken 3 runningOut)))
       s.valves.waiting = [23] ∧ s.valves.slots[(2 : Slot)] = none ∧
         (∀ j : Slot, j ≠ 2 → (s.valves.slots[j]).isSome = true) ∧ (s.channel 23).urgent = none ∧
         (s.channel 23).queue = .moveTo 0 .loop :: [] ∧ (s.channel 23).position = some 60 ∧
         effectiveTarget s 23 0 .loop = 20) := by
  decide +kernel

/-- The burner link's receiver with a frame of so many good bytes behind it, or at another place. -/
def assembling (rx : LinkRx) (ticks : Nat) : Machine.State := exchanging .reset ticks { BurnerLink.reset with rx := rx }

theorem test_witness_burnerBytes :
    (assembling (.frame [2, 5, 1, 0, 60, 40, 0] 100) 427).link.rx = .frame [2, 5, 1, 0, 60, 40, 0] 100 ∧
      427 < 100 + 328 ∧ 100 + 328 ≤ 428 ∧
      (let good := fun b => after (.frameAbandoned (linkByteOf b))
       let s := fun ticks => assembling (.frame [2, 5, 1, 0, 60, 40, 0] 100) ticks
       let crc := crc8 [2, 5, 1, 0, 60, 40, 0]
       (goodStatus? ⟨1, 0, 60, 40, 0, crc⟩).isSome = true ∧ goodStatus? ⟨1, 0, 60, 40, 0, crc + 1⟩ = none ∧
         (good crc (s 427)).link.exchange = .none ∧ (good (crc + 1) (s 427)).link.rx = .quiet ∧
         (good 2 (s 428)).link.rx = .frame [2] 428 ∧ (good 3 (s 428)).link.rx = .discarding 428 ∧
         (good 2 (assembling (.discarding 100) 427)).link.rx = .discarding 427 ∧
         (good 2 (assembling (.discarding 100) 428)).link.rx = .frame [2] 428 ∧
         (after (.frameAbandoned { linkByteOf 2 with stopLow := true }) (assembling .quiet 5)).link.rx = .discarding 5 ∧
         (good 5 (assembling (.frame [2] 5) 6)).link.rx = .frame [2, 5] 6 ∧
         (good 4 (assembling (.frame [2] 5) 6)).link.rx = .discarding 6 ∧
         (after .byteGapTimeout (assembling (.frame [2] 5) 6)).link.rx = .quiet) := by
  decide +kernel

theorem test_witness_theInvariantsOfTheValvesTheRegistryAndTheHeatRequest :
    Machine.State.reset.valvesSound ∧ Machine.State.reset.registrySound ∧ Machine.State.reset.heatSound := by
  refine ⟨valvesSound_of (by decide +kernel) (by decide +kernel) (by decide +kernel) (by decide +kernel), ?_, ?_⟩
  · intro u v a b h
    have free : ∀ w : UnitIx, Machine.State.reset.report.registry[w] = none := by decide +kernel
    rw [free u] at h
    cases h
  · unfold State.heatSound
    decide +kernel

/-! ### Owners' requests of any index, failures of either slot, entries at rest, frost entry -/

/-- An index or channel number out of range is judged after the claim check. -/
theorem test_anyIndexBeginsWithAClaimCheck :
    ((after (.unitAdmit .A 31 0 0) (claimed .A 16)).arbiter.carrying =
        some ⟨.check .A (.unitAdmit 31 0 0) configClaim, .checked true⟩) ∧
      ((after (.unitRemove .B 40) (claimed .A 16)).arbiter.carrying =
        some ⟨.check .B (.unitRemove 40) configClaim, .checked false⟩) ∧
      ((after (.valveAssign .B 24 0 90 0 100) (claimed .A 16)).arbiter.carrying =
        some ⟨.check .B (.valveAssign 24 0 90 0 100) configClaim, .checked false⟩) := by
  decide +kernel

/-- A frame whose deferral limit comes on a busy line. -/
def deferring (source : Source) (outbound : List OutFrame) (control : Option ControlFrame) : Machine.State :=
  { Machine.State.reset with bus := { RoomBus.reset with
      line := .busy, outbound := outbound, control := control, deferral := some ⟨source, 8192⟩ } }

/-- The first and the eighth failure of a control frame, by deferral and by a stuck bus. -/
theorem test_witness_aControlFrameFails :
    (let s := deferring .control [anAck] (some ⟨.holdOff, 0⟩)
     s.bus.errState = .normal ∧ s.bus.deferral = some ⟨.control, 8192⟩ ∧ s.bus.line ≠ .free ∧
       s.bus.pendingControl = none ∧ (after .deferralTimeout s).bus.control = some ⟨.holdOff, 1⟩) ∧
      (let s := deferring .control [anAck] (some ⟨.resume, 7⟩)
       let t := after .deferralTimeout s
       8 ≤ 7 + 1 ∧ t.bus.control = none ∧ t.bus.deferral = some ⟨.outbound, 16384⟩ ∧
         t.portB.notices = [⟨.sendFailed, .address 0, 0, [5, 0, 8]⟩]) ∧
      (let s := attempting .control [] (some ⟨.holdOff, 7⟩)
       s.bus.attempt = some ⟨.control, 0x10⟩ ∧ s.bus.line = .busy ∧ s.bus.rx = none ∧
         ((after (.busError true 2) s).port .A).noticesLost = false ∧
         ((after (.stuckBus .both) s).port .A).noticesLost = false) ∧
      (toSend [anAck] (some ⟨.holdOff, 2⟩) (some 66)).bus.controlBackoff = some 66 ∧
      (toSend [anAck] (some ⟨.holdOff, 2⟩) (some 66)).bus.outboundBackoff = some 66 ∧
      (toSend [anAck] (some ⟨.holdOff, 2⟩) (some 66)).bus.attempt = none ∧
      (let t := after .deferralTimeout (deferring .outbound [{ anAck with failures := 7 }] none)
       t.bus.outbound = [] ∧ t.portA.notices = [⟨.sendFailed, .address 0x24, 0, [7, 0, 8]⟩]) := by
  decide +kernel

theorem test_witness_noReservation (source : Source) (l : List OutFrame) (c : Option ControlFrame) :
    (attempting source l c).noReservation := fun f h => by cases h

/-- A pending order at the end of the attempt, and frames placed behind a head in transmission. -/
theorem test_witness_placingDuringAnAttempt :
    (let a := attempting .control [anAck] (some ⟨.holdOff, 6⟩)
     let s := { a with bus := { a.bus with pendingControl := some .resume } }
     s.bus.control = some ⟨.holdOff, 6⟩ ∧ s.bus.pendingControl = some .resume ∧ ControlKind.holdOff ≠ .resume ∧
       s.report.holdOff = .flowing ∧ s.report.queue.length + 1 < s.taken.holdoffLevel ∧
       (after .attemptSuccess s).bus.control = some ⟨.resume, 0⟩ ∧
       (after (.arbitrationLoss 1) s).bus.control = none ∧ (after (.stuckBus .data) s).bus.control = none) ∧
      (let own : OutFrame := ⟨.announce 2 200 .base, 0⟩
       let s := attempting .outbound ([own] ++ [anAck]) none
       s.bus.outbound = [own] ++ [anAck] ∧ [own].length = 1 ∧ s.bus.attempt = some ⟨.outbound, 0x10⟩ ∧
         (queueAnnounce 2 210 .hold s).bus.outbound = [own, anAck, ⟨.announce 2 210 .hold, 0⟩] ∧
         (queueAnnounce 3 210 .hold (attempting .outbound (own :: List.replicate 7 anAck) none)).bus.outbound =
           own :: List.replicate 7 anAck) := by
  decide +kernel

/-- Zone 15 in service at 4.0 degrees, with channel 23 closed but for 60 %, and zone events taken. -/
def freezing : Machine.State :=
  let s := (withChannel 15 (aChannel (some 15) .idle true [])).modZone 15 fun z =>
    { z with serviceMode := .inService, measureState := .fresh, measured := some 40, valveCount := 1 }
  { s with demand := { s.demand with zoneEvents := [15], loopRan := true } }

theorem test_witness_aZoneEntersFrostEmergency :
    frostEntry freezing.zones[(15 : Zone)] freezing.taken.frostFloor = true ∧
      (freezing.port .A).mask[20] = true ∧ (15 : Zone) ∈ freezing.demand.zoneEvents ∧
      (let t := after (.zoneEvent 15) freezing
       t.portA.noticesLost = false ∧ (t.channel 23).inProgress.any (fun i => i.entry = .moveTo 100 .urgent) = true ∧
         t.portA.notices.head? = some ⟨.frostEmergency, .zone 15, 0, []⟩ ∧ t.demand.heatList = [15]) ∧
      (after .loopEvent freezing).portB.noticesLost = false := by
  refine ⟨by decide +kernel, by decide +kernel, by decide +kernel, ?_, ?_⟩
  · simp only [after, exec, execZoneEvent, zoneEventOf, evaluation]
    generalize Config.frostFirst _ = first
    cases first <;> decide +kernel
  · simp only [after, exec, execLoopEvent, loopAt, evaluation]
    generalize Config.frostFirst _ = first
    cases first <;> decide +kernel

/-- A VALVE_SERVICE of a channel at rest at 60 %, as it stands until its completion. -/
def servicing (taken : Nat) (entries : List ServiceEntry) : Machine.State :=
  after (.valveService .A 23 entries) (slotsTaken taken (withChannel 15 (aChannel (some 15) .idle true [])))

/-- A MARK and a MOVE_TO to the position held are done at once; what follows keeps the channel busy, or nothing does. -/
theorem test_witness_entriesAtRest :
    (let s := slotsTaken 3 (withChannel 15 (aChannel (some 15) .idle true []))
     (s.channel 23).inProgress = none ∧ (s.channel 23).state ≠ .waiting ∧ (s.channel 23).state ≠ .fault ∧
       (s.channel 23).queue = [] ∧ (s.channel 23).urgent = none ∧ s.valves.waiting = [] ∧
       (s.channel 23).position = some 60 ∧ (∀ i : Slot, (s.valves.slots[i]).isSome = true)) ∧
      (let t := after .storeRequestComplete (servicing 3 [⟨3, 9⟩, ⟨0, 60⟩])
       (t.channel 23).state = .idle ∧ t.portA.notices = [⟨.valveMark, .channel 23, 0, [9, 0]⟩]) ∧
      ((after .storeRequestComplete (servicing 3 [⟨1, 5⟩])).channel 23).state = .dwelling ∧
      (after .storeRequestComplete (servicing 3 [⟨2, 0⟩])).valves.waiting = [23] ∧
      (let t := after .storeRequestComplete (servicing 2 [⟨3, 9⟩, ⟨0, 20⟩])
       (t.channel 23).state = .moving ∧ t.valves.slots[(2 : Slot)] = some 23 ∧
         (slotsTaken 2 Machine.State.reset).valves.slots[(2 : Slot)] = none ∧
         ∀ j : Slot, j < 2 → ((slotsTaken 2 Machine.State.reset).valves.slots[j]).isSome = true) := by
  decide +kernel

theorem test_witness_doneWithoutMovement :
    (aChannel (some 15) .idle true []).doneWithoutMovement (.mark .A 9) ∧
      (aChannel (some 15) .idle true []).doneWithoutMovement (.moveTo 60 .service) :=
  ⟨.inl ⟨.A, 9, rfl⟩, .inr ⟨60, rfl, rfl⟩⟩

/-- A DOWN link recovers with min_off over, permitted to fire or not, and with room for every notice. -/
theorem test_witness_downLinkAfterMinOff :
    (∀ served, (exchanging (inState .linkDown none served) 13108 { BurnerLink.reset with up := false }).minOffOver) ∧
      (exchanging (inState .linkDown none true) 13108 { BurnerLink.reset with up := false }).mayFire ∧
      ¬ (exchanging (inState .linkDown none false) 13108 { BurnerLink.reset with up := false }).mayFire ∧
      (let s := exchanging (inState .linkDown none true) 13108 { BurnerLink.reset with up := false }
       s.firing.dump = false ∧ (60 : Byte).toNat < s.taken.dumpThreshold ∧ (s.port .A).mask[18] = true ∧
         (s.port .A).mask[16] = true ∧ (s.port .A).notices.length + 3 < 32) :=
  ⟨fun _ => minOffOver_of rfl, mayFire_of rfl (by decide +kernel) (by decide +kernel),
    notMayFire_of (by decide +kernel), by decide +kernel⟩

theorem test_witness_theSendersInvariant : Machine.State.reset.senderSound :=
  ⟨fun a h => (by cases h), fun d h => (by cases h), rfl⟩

/-! ### A control frame that waits beside an attempt, and bytes on the burner link -/

/-- A HOLD_OFF ordered while the outbound head is in transmission. -/
def placedMeanwhile : Machine.State := orderControl .holdOff (attempting .outbound [anAck, anAck] none)

/-- Its wait starts at its place in the slot, goes on after the attempt's end, and may fail it beside the attempt. -/
theorem test_aControlFrameWaitsBesideAnAttempt :
    (attempting .outbound [anAck, anAck] none).bus.deferral = none ∧
      placedMeanwhile.bus.deferral = some ⟨.control, 8192⟩ ∧ placedMeanwhile.bus.controlBackoff = none ∧
      (after .attemptSuccess placedMeanwhile).bus.deferral = some ⟨.control, 8192⟩ ∧
      (after .attemptFailure placedMeanwhile).bus.deferral = some ⟨.control, 8192⟩ ∧
      (let t := after .deferralTimeout placedMeanwhile
       t.bus.control = some ⟨.holdOff, 1⟩ ∧ t.bus.attempt = some ⟨.outbound, 0x10⟩ ∧ t.bus.outbound = [anAck, anAck]) := by
  decide +kernel

theorem test_witness_noControlFrameInTransmission :
    (∀ src, placedMeanwhile.bus.attempt ≠ some ⟨.control, src⟩) ∧
      ∀ ends, (attempting .outbound [anAck, anAck] none).bus.deferral ≠ some ⟨.control, ends⟩ :=
  ⟨fun src h => (by cases h), fun ends h => (by cases h)⟩

/-- A byte on the burner link, least significant bit first between its start and stop bits. -/
theorem test_aByteOnTheBurnerLink :
    linkByteLevels (linkByteOf 0x41) = [false, true, false, false, false, false, false, true, false, true] ∧
      linkValue ⟨#v[true, false, false, false, false, false, true, false], true⟩ = 0x41 ∧
      (let t := after .exchange .reset
       t.link.exchange = .sending ∧ t.linkLevels.length = 70 ∧ t.linkLevels.take 10 = linkByteLevels (linkByteOf 1) ∧
         (after .demandSent t).linkLevels = []) := by
  decide +kernel

/-- A byte on the room bus, most significant bit first, then the acknowledge slot. -/
theorem test_aByteOnTheRoomBus :
    busByteLevels 0x41 = [false, true, false, false, false, false, false, true, true] ∧
      ((attempting .outbound [anAck] none).sentLevels ⟨.outbound, 0x10⟩).length = 54 := by
  decide +kernel

/-- An open_timer of whole seconds is sent as their number. -/
theorem test_openTimerOfWholeSeconds : openTimerBytes (some 2400) = [2, 88] ∧ openTimerBytes none = [0xFF, 0xFF] := by
  decide

/-! ### Requests at a busy port and at a busy arbiter -/

theorem test_aRequestAtABusyPortIsDropped :
    (onItsWay.port .A).request ≠ .idle ∧ (discarding.port .A).resetPending = true ∧
      requestCommand .A (.claim 3) = .claim .A 3 ∧
      (after (.claim .A 3) onItsWay).portA = { onItsWay.portA with fault := some ⟨some 8, .busy, none, 0, 0⟩ } ∧
      (after (.portReset .A) discarding).portA.fault = some ⟨some 29, .busy, none, 0, 0⟩ := by
  decide +kernel

/-- Port A holds the claims 4 and 16 while a minute evaluation is carried out. -/
def occupied : Machine.State :=
  { (claimed .A 4).setClaim 16 (some ⟨.A, 24, false⟩) with
    arbiter := (contended ⟨none, none, none, none, none⟩).arbiter }

theorem test_witness_requestsJoinTheWaitingSet :
    occupied.portIdle .A ∧ occupied.portIdle .B ∧ occupied.arbiter.carrying.isSome = true ∧
      (claimed .A 16).portIdle .A ∧ (claimed .A 16).arbiterIdle ∧
      occupied.placedFor .A (.scheduleDelete 4 0) = some (.host .A (.scheduleDelete 4 0)) ∧
      occupied.claimNeeded (.scheduleDelete 4 0) = some (zoneClaim 4) ∧ occupied.holds .A (zoneClaim 4) = true ∧
      occupied.claimNeeded (.scheduleDelete 16 0) = none ∧
      occupied.placedFor .B (.unitRemove 32) = some (.check .B (.unitRemove 32) configClaim) ∧
      occupied.holds .B configClaim = false ∧
      occupied.placedFor .A (.valveService 23 []) = some (.check .A (.valveService 23 []) configClaim) ∧
      occupied.placedFor .A (.valveService 24 []) = none ∧
      occupied.placedFor .A .portReset = some (.resetStep .A) :=
  ⟨⟨rfl, rfl⟩, ⟨rfl, rfl⟩, rfl, ⟨rfl, rfl⟩, ⟨rfl, rfl⟩, by decide +kernel⟩

theorem test_aWaitingRequestFreezesItsClaim :
    (let t := after (.scheduleDelete .A 4 0) occupied
     t.arbiter.waiting.portA = some (.host .A (.scheduleDelete 4 0)) ∧
       t.store.claims[zoneClaim 4] = some ⟨.A, 24, true⟩ ∧ t.store.claims[configClaim] = some ⟨.A, 24, false⟩) ∧
      (let t := after (.unitRemove .B 32) occupied
       t.arbiter.waiting.portB = some (.check .B (.unitRemove 32) configClaim) ∧ t.store.claims = occupied.store.claims) ∧
      (let t := after (.portReset .A) occupied
       t.arbiter.waiting.portA = some (.resetStep .A) ∧ t.portA.resetPending = true) := by
  decide +kernel

theorem test_aWaitingRequestIsCarriedOutAtItsGrant :
    (let s := after (.scheduleDelete .A 4 10080) occupied
     (∀ x ∈ (afterHandBack ⟨.minuteEval 1, .done⟩ s).report.storeOrders, x = .boostCancel 0) ∧
       (after .storeRequestComplete s).arbiter.carrying =
         some ⟨.host .A (.scheduleDelete 4 10080), .reply .range [] (some (zoneClaim 4))⟩) ∧
      StoreReq.ofReport (.boostCancel 3) := by
  refine ⟨by decide +kernel, trivial⟩

/-! ### Points and what they end -/

/-- Zone 15 with one point at minute 1, before it, and a HOLD of port B until the next point. -/
def untilPoint : Machine.State :=
  let s := Machine.State.reset.modStack 15 fun _ => ⟨some ⟨210, true, .untilNextPoint, .B⟩, some ⟨15, 1, 3⟩, false⟩
  { s with
    store := { s.store with lists := s.store.lists.set (15 : Zone) [⟨1, .target 190⟩] }
    clock := { s.clock with seconds := 59, timeValid := true } }

theorem untilPoint_ready : untilPoint.ready .A := readyOf rfl rfl rfl rfl

theorem test_aPointEndsAHold :
    (let t := after (.setTime .A 1 0) untilPoint
     t.store.current[(15 : Zone)] ≠ untilPoint.store.current[(15 : Zone)] ∧
       untilPoint.expiredByPoint t 15 = [⟨.overrideExpired, .zone 15, 0, [0, 1, 1]⟩] ∧
       (untilPoint.port .A).mask[2] = true ∧ t.portA.noticesLost = false ∧
       t.portA.queued .overrideExpired = [⟨.overrideExpired, .zone 15, 0, [0, 1, 1]⟩] ∧
       t.store.overrides[(15 : Zone)] = ⟨none, some ⟨15, 1, 3⟩, false⟩) ∧
      (let t := after .minuteEvent untilPoint
       t.portB.noticesLost = false ∧
         t.portB.queued .overrideExpired =
           [⟨.overrideExpired, .zone 15, 1, [0, 1, 1]⟩, ⟨.overrideExpired, .zone 15, 1, [1, 0, 3]⟩]) := by
  decide +kernel

theorem test_witness_aZoneStandsResolved :
    Machine.State.reset.resolvedAt 3 ∧ ¬ untilPoint.resolvedAt 15 ∧
      (after (.setTime .A 1 0) untilPoint).zones[(3 : Zone)] = untilPoint.zones[(3 : Zone)] ∧
      (after (.setTime .A 1 0) untilPoint).resolvedAt 15 := by
  unfold State.resolvedAt
  decide +kernel

theorem test_aCancelTellsNothing :
    (let t := after (.cancelHold .A 15) overridden
     t.portB.queued .overrideExpired = [] ∧ t.portB.queued .overrideReplaced = [] ∧
       t.store.overrides[(15 : Zone)].hold = none) ∧
      (after (.cancelBoost .A 15) overridden).portB.queued .overrideExpired = [] := by
  decide +kernel

theorem test_pointsInTheirBits :
    pointRead 50 280 0x9D7CFA = some ⟨10079, .target 280⟩ ∧ pointRead 50 280 0x000600 = some ⟨1, .setbackToDefault⟩ ∧
      pointRead 50 280 0x9D8200 = none ∧ pointRead 50 280 0x000013 = none ∧
      Point.recordBytes ⟨10079, .target 280⟩ = [0x9D, 0x7C, 0xFA] ∧
      Point.recordBytes ⟨1, .setbackToDefault⟩ = [0x00, 0x06, 0x00] := by
  decide +kernel

theorem test_parameterRanges :
    parameterRanges.length = 35 ∧ parameterRanges[0]? = some (30, 100) ∧ parameterRanges[28]? = some (1, 6) ∧
      parameterRanges[29]? = some (0, 1) ∧ parameterRanges[34]? = some (0, 600) ∧
      itemInRange ⟨22, 0, -200⟩ = true ∧ itemInRange ⟨22, 0, -201⟩ = false ∧ itemInRange ⟨26, 0, 0x77⟩ = true ∧
      itemInRange ⟨26, 0, 0x78⟩ = false := by
  decide +kernel

/-! ### Units and channels set by a host -/

/-- A full outbound queue. -/
def crowded (s : Machine.State) : Machine.State := { s with bus := { s.bus with outbound := List.replicate 8 anAck } }

theorem test_anAdmissionWithAFullQueue :
    8 ≤ (crowded (withUnit .pending)).bus.outbound.length ∧
      (let t := after .storeRequestComplete (after (.unitAdmit .A 31 15 1) (crowded (withUnit .pending)))
       t.portB.noticesLost = false ∧ t.portB.notices = [⟨.sendFailed, .address 0x24, 0, [7, 2, 0]⟩] ∧
         t.bus.outbound = List.replicate 8 anAck) ∧
      (let s := withUnit .pending
       let t := after .storeRequestComplete
         (after (.unitAdmit .A 31 15 1) { s with bus := { s.bus with outbound := [anAck] } })
       t.bus.outbound = [anAck, ⟨.joinAck 0x24 (some 15), 0⟩]) := by
  decide +kernel

/-- The check of a UNIT_REMOVE has passed while the Report Processor has a request waiting or raised. -/
def removing (w : Option StoreReq) (orders : List StoreReq) : Machine.State :=
  let s := withUnit .pending
  { s with
    report := { s.report with storeOrders := orders }
    arbiter := ⟨⟨none, none, w, none, none⟩, some ⟨.check .A (.unitRemove 31) configClaim, .checked true⟩, .portA⟩ }

theorem test_witness_anOwnerRemovalIsPlacedOrRaised :
    (∀ w orders, (removing w orders).arbiter.carrying =
        some ⟨.check .A (.unitRemove 31) configClaim, .checked true⟩) ∧
      (removing none []).report.storeOrders = [] ∧ (removing none []).arbiter.waiting.report = none ∧
      ((removing (some (.boostCancel 2)) []).arbiter.waiting.report).isSome = true ∧
      (removing none [.boostCancel 2]).report.storeOrders ≠ [] ∧
      (afterHandBack ⟨.check .A (.unitRemove 31) configClaim, .checked true⟩
        (removing (some (.boostCancel 2)) [])).report.storeOrders = [.ownerRemoval 31 .A] ∧
      (withUnit .pending).report.registry[(30 : UnitIx)] = none ∧ 32 ≤ (32 : Byte).toNat :=
  ⟨fun _ _ => rfl, by decide +kernel⟩

theorem test_aFlushTellsOfItsMarks :
    (let s := withChannel 16 { aChannel (some 15) .dwelling true [.dwell 5, .mark .B 7, .mark .A 8, .mark .B 9] with
       inProgress := some ⟨.dwell 5, 0, 0, none⟩ }
     let t := after .storeRequestComplete (after (.valveAssign .A 23 3 40 0 100) s)
     (s.channel 23).state ≠ .moving ∧ (s.port .B).mask[14] = true ∧ t.portB.noticesLost = false ∧
       t.portB.marksOf 23 = [⟨.valveMark, .channel 23, 0, [7, 1]⟩, ⟨.valveMark, .channel 23, 0, [9, 1]⟩] ∧
       marksAborted .A 23 0 (s.channel 23).queue = [⟨.valveMark, .channel 23, 0, [8, 1]⟩]) ∧
      (let s := (moving (.moveTo 0 .service) closing 1297613).modChannel 23 fun r =>
         { r with queue := r.queue ++ [.mark .A 7] }
       let t := after (.stall 2) s
       (s.channel 23).headStarted = true ∧ (23 : Channel) ∉ s.valves.waiting ∧ t.portA.noticesLost = false ∧
         t.portA.marksOf 23 = [⟨.valveMark, .channel 23, 39, [7, 1]⟩] ∧ (t.channel 23).state = .fault) := by
  decide +kernel

/-! ### Urgent moves -/

theorem test_witness_urgentMovesByState :
    (let s := withChannel 16 (aChannel (some 15) .idle true [])
     (s.channel 23).calibrated = true ∧ (s.channel 23).zone ≠ none ∧ (s.channel 23).inProgress = none ∧
       (s.channel 23).position = some 60 ∧ s.valves.waiting = [] ∧
       (∀ i : Slot, ((slotsTaken 3 s).valves.slots[i]).isSome = true) ∧
       (slotsTaken 2 s).valves.slots[(2 : Slot)] = none ∧
       (∀ j : Slot, j < 2 → ((slotsTaken 2 s).valves.slots[j]).isSome = true) ∧
       (placeUrgent 100 23 (slotsTaken 3 s)).valves.waiting = [23] ∧
       (placeUrgent 100 23 (slotsTaken 2 s)).valves.slots[(2 : Slot)] = some 23 ∧
       placeUrgent 60 23 s = s) ∧
      ((dwelling [.moveTo 10 .service]).channel 23).state = .dwelling ∧
      (placeUrgent 100 23 (dwelling [.moveTo 10 .service])).valves.waiting = [23] := by
  decide +kernel

/-- A LOOP move to 0 that still stands at its start is cut by an urgent move to that position. -/
theorem test_anUrgentMoveWhereTheChannelStands :
    (let s := (moving (.moveTo 0 .loop) closing 0).setIssued 23 (some 0)
     let t := placeUrgent 60 23 s
     closing.estimate (s.clock.ticks - 0) = some 60 ∧ (s.channel 23).headStarted = true ∧
       (s.channel 23).queue.tail = [] ∧ s.valves.waiting = [] ∧
       (t.channel 23).state = .idle ∧ (t.channel 23).position = some 60 ∧ t.valves.slots[(2 : Slot)] = none ∧
       t.demand.lastIssued[(23 : Channel)] = some 0) := by
  decide +kernel

/-! ### What stands on the line -/

theorem test_aSyncOnTheLine :
    (let s := after (.sync true) { Machine.State.reset with bus := { Machine.State.reset.bus with errState := .recovering } }
     s.bus.syncing = true ∧ s.sentOnLine = onLine [0x00] ∧ s.sentOnLine.length = 11 ∧
       (after (.sync false) s).sentOnLine = [] ∧ (after .syncComplete s).sentOnLine = []) ∧
      (attempting .outbound [anAck] none).bus.syncing = false ∧
      (attempting .outbound [anAck] none).sentOnLine.length = 56 := by
  decide +kernel

end Sys2Proof.Tests
end

section
/-! SUPPORT. A port's Program Store request that freezes no claim, granted at once (R72), and RELEASE_TIME
(R29) as one such request. -/

namespace Sys2Proof.Machine

variable {s : State} {p : Port} {r : HostReq}

/-! ### A request that freezes no claim, granted at once -/

theorem freeze_of_needs_none {req : StoreReq} (unclaimed : req.needs = none) : freeze req s = s := by
  simp only [freeze, unclaimed]

/-- A ready port's request that needs no claim is carried out in the same command: when that leads from the state
of its grant to the state of `f`'s grant, the command leaves `f` with the answer on its way (R72). -/
theorem exec_requestCommand_granted {f : State} {st : Status} {body : List Byte} {used : Option ClaimIx}
    (ready : s.ready p) (placed : s.placedFor p r = some (.host p r)) (unclaimed : s.claimNeeded r = none)
    (carried : carryOut (.host p r) (atGrant p (s.inFlight p r)) =
      (atGrant p (f.inFlight p r), .reply st body used)) :
    exec (requestCommand p r) s = .next (f.granted p r st body used) := by
  obtain ⟨idle, arbiterIdle⟩ := ready
  have notReset : r ≠ .portReset := by
    rintro rfl
    cases placed
  have unfrozen : (StoreReq.host p r).needs = none := by
    rw [needs_placedFor placed, unclaimed, Option.map_none]
  rw [exec_requestCommand, takeRequest_idle idle notReset, handOver_placed placed,
    place_idle _ (arbiterIdle_inFlight arbiterIdle), freeze_of_needs_none unfrozen, carried]
  rfl

/-! ### The time authority across the taking and the grant of a request -/

@[simp] theorem clock_atGrant_inFlight : (atGrant p (s.inFlight p r)).clock = s.clock := by
  cases p <;> rfl

theorem freeAuthority_atGrant_inFlight :
    (atGrant p (s.inFlight p r)).freeAuthority = atGrant p (s.freeAuthority.inFlight p r) := by
  cases p <;> rfl

/-! ### RELEASE_TIME -/

theorem carryOut_releaseTime_of_holder (holder : s.clock.authority = some p) :
    carryOut (.host p .releaseTime) s = (s.freeAuthority, .reply .ok [] none) := by
  rw [carryOut_releaseTime, storeReleaseTime, if_pos holder, answer]

theorem carryOut_releaseTime_of_not_holder (notHolder : s.clock.authority ≠ some p) :
    carryOut (.host p .releaseTime) s = (s, .reply .notAuthority [] none) := by
  rw [carryOut_releaseTime, storeReleaseTime, if_neg notHolder, answer]

theorem exec_releaseTime_of_holder (ready : s.ready p) (holder : s.clock.authority = some p) :
    exec (.releaseTime p) s = .next (s.freeAuthority.granted p .releaseTime .ok [] none) := by
  have carried := carryOut_releaseTime_of_holder (s := atGrant p (s.inFlight p .releaseTime)) (p := p)
    (by rw [clock_atGrant_inFlight, holder])
  rw [freeAuthority_atGrant_inFlight] at carried
  exact exec_requestCommand_granted ready rfl rfl carried

theorem exec_releaseTime_of_not_holder (ready : s.ready p) (notHolder : s.clock.authority ≠ some p) :
    exec (.releaseTime p) s = .next (s.granted p .releaseTime .notAuthority [] none) :=
  exec_requestCommand_granted ready rfl rfl
    (carryOut_releaseTime_of_not_holder (by rwa [clock_atGrant_inFlight]))

/-- Settles O14: RELEASE_TIME freezes no claim, so that a ready port's is granted at once, and carried out it
splits on whether the port holds the authority. -/
theorem releaseTimeGivesUpTheAuthority : Obligations.ReleaseTimeGivesUpTheAuthority := by
  unfold Obligations.ReleaseTimeGivesUpTheAuthority
  refine ⟨fun p s ready => ⟨fun holder => ?_, fun notHolder => ?_⟩, fun p s => ⟨fun holder => ?_, fun notHolder => ?_⟩⟩
  · exact exec_releaseTime_of_holder ready holder
  · exact exec_releaseTime_of_not_holder ready notHolder
  · exact carryOut_releaseTime_of_holder holder
  · exact carryOut_releaseTime_of_not_holder notHolder

end Sys2Proof.Machine
end

section
/-! SUPPORT. Resolution (R58) read by its table: the value its first steps ask for, and the limits it is brought
into. -/

namespace Sys2Proof.Machine

variable {base floor max : Int} {mode : ServiceMode} {st : Stack} {r : Int × Basis}

/-- What the base, the HOLD and the BOOST ask for (the first three rows of R58's table). -/
def askedFor (base : Int) (st : Stack) : Int × Basis :=
  let held := match st.hold with
    | some h => (h.target, Basis.hold)
    | none => (base, Basis.base)
  match st.boost with
  | some b => (held.1 + b.delta, Basis.boost)
  | none => held

/-- A value brought between the limits (the last row of R58's table). -/
def brought (floor max : Int) (r : Int × Basis) : Int × Basis :=
  if r.1 < floor then (floor, .floor) else if max < r.1 then (max, r.2) else r

theorem brought_of_lt_floor (below : r.1 < floor) : brought floor max r = (floor, .floor) := if_pos below

theorem brought_of_max_lt (ordered : floor ≤ max) (above : max < r.1) : brought floor max r = (max, r.2) := by
  rw [brought, if_neg (by omega), if_pos above]

theorem brought_of_between (low : floor ≤ r.1) (high : r.1 ≤ max) : brought floor max r = r := by
  rw [brought, if_neg (by omega), if_neg (by omega)]

/-- Resolution is its rows: WINDOW and OFF each set the floor, else the stack speaks; then the limits. -/
theorem resolve_eq_brought : resolve mode base st floor max =
    brought floor max
      (if mode = .off ∧ st.window = false then (floor, .floor)
      else if st.window then (floor, .window)
      else askedFor base st) := rfl

theorem resolve_of_window (ordered : floor ≤ max) (window : st.window = true) :
    resolve mode base st floor max = (floor, .window) := by
  rw [resolve_eq_brought, if_neg (by simp [window]), if_pos window]
  exact brought_of_between (Int.le_refl _) ordered

theorem resolve_of_off (ordered : floor ≤ max) (noWindow : st.window = false) (off : mode = .off) :
    resolve mode base st floor max = (floor, .floor) := by
  rw [resolve_eq_brought, if_pos ⟨off, noWindow⟩]
  exact brought_of_between (Int.le_refl _) ordered

theorem resolve_of_asked (noWindow : st.window = false) (notOff : mode ≠ .off) :
    resolve mode base st floor max = brought floor max (askedFor base st) := by
  rw [resolve_eq_brought, if_neg (fun h => notOff h.1), if_neg (by simp [noWindow])]

/-! ### The zone record takes the resolution -/

/-- Once its resolved values are written, what a resolution sets off touches nothing that it reads (R58, R60, R61). -/
theorem settle_resolvedAt (force : Bool) (z : Zone) (s : State) : (settle force z s).resolvedAt z := by
  rw [settle_eq]
  unfold State.resolvedAt
  rw [settleRest_within.zones rfl, settleRest_within.store rfl, settleRest_within.written rfl, zones_modZone,
    Vector.get_set_zone, if_pos rfl]
  rfl

end Sys2Proof.Machine
end

section
/-! SUPPORT. What any command can do: it answers a next state, keeps the commands that wait, and keeps each
invariant that the shared operations keep (Laws/Within). An event whose meaning splits has a lemma here; exec_answers
cites these, and for every other command the lemma of the operation it carries out. -/

namespace Sys2Proof.Machine

variable {F : Foot} {s t : State}

/-- Every part of the state: the footprint of a command of which only what it keeps is said. -/
def wholeFoot : Foot where
  clock := true
  written := true
  taken := true
  zones := true
  targets := true
  calls := true
  frost := true
  store := true
  arbiter := true
  demand := true
  contacts := true
  bus := true
  report := true
  valves := true
  firing := true
  link := true
  ports := true

theorem Foot.le_wholeFoot (F : Foot) : F.le wholeFoot = true := by simp [Foot.le, wholeFoot]

/-- The outcome is a next state, reached by operations that keep the invariants. -/
def Answers (s : State) (o : Host.Outcome State Fault Refusal) : Prop := ∃ t, o = .next t ∧ Within wholeFoot s t

theorem Within.answers (h : Within F s t) : Answers s (.next t) := ⟨t, rfl, h.mono (Foot.le_wholeFoot F)⟩

theorem Answers.within {o : Host.Outcome State Fault Refusal} (h : Answers s o) (next : o = .next t) :
    Within wholeFoot s t := by
  obtain ⟨u, reached, within⟩ := h
  rw [reached] at next
  cases next
  exact within

/-- A command that changes nothing. -/
theorem Answers.refl : Answers s (.next s) := Within.refl.answers (F := wholeFoot)

/-- An event that acts only when its condition holds (log 2). -/
theorem Answers.ite {c : Prop} [Decidable c] (h : c → Within F s t) : Answers s (.next (if c then t else s)) :=
  (Within.ite h fun _ => .refl).answers

/-- An operation at its timer's moment: the crystal runs on to that moment first (log 1). -/
theorem Within.afterRunTo {n : Nat} (h : Within F (runTo n s) t) : Within wholeFoot s t :=
  (h.mono (Foot.le_wholeFoot F)).after (runTo_within n).mono

/-! ### DEVICE_RESET and the transactions of a port -/

theorem portsSound_reset : State.reset.portsSound := by
  unfold State.portsSound PortState.sound
  decide +kernel

theorem poolSound_reset : State.reset.poolSound := by
  unfold State.poolSound Store.listsSound
  decide +kernel

theorem stacksSound_reset : State.reset.stacksSound := by
  unfold State.stacksSound Stack.sound
  decide +kernel

theorem targetsSound_reset : State.reset.targetsSound := by
  unfold State.targetsSound Params.limitsSound
  decide +kernel

theorem callsSound_reset : State.reset.callsSound := by
  unfold State.callsSound
  decide +kernel

theorem busSound_reset : State.reset.busSound := by
  unfold State.busSound
  decide +kernel

/-- A device reset keeps the waiting commands, and each invariant holds after it whatever stood before (R77, log 19). -/
theorem execDeviceReset_answers : Answers s (execDeviceReset s) := by
  refine ⟨_, rfl, ?_⟩
  constructor
  case pending => rfl
  case keepsPorts => exact fun _ => portsSound_reset
  case keepsPool => exact fun _ => poolSound_reset
  case keepsStacks => exact fun _ => stacksSound_reset
  case keepsTargets => exact fun _ => targetsSound_reset
  case keepsCalls => exact fun _ => callsSound_reset
  case keepsBus => exact fun _ => busSound_reset
  all_goals (intro inside; cases inside)

theorem execVoidTransaction_answers {v : VoidTransaction} : Answers s (execVoidTransaction v s) := by
  unfold execVoidTransaction
  split
  · exact (modPort_within_notices v.port fun _ => notices_recordRefusal _ _ _ _ _).answers
  · exact .refl

theorem execBadFrame_answers {p : Port} {bytes : List Byte} : Answers s (execBadFrame p bytes s) := by
  unfold execBadFrame
  split
  · exact takeVerdict_within.answers
  · exact .refl

theorem execFetch_answers {p : Port} : Answers s (execFetch p s) :=
  (modPort_within_notices p notices_startFetch).answers

theorem execFetchTransactionEnd_answers {p : Port} {whole : Bool} : Answers s (execFetchTransactionEnd p whole s) :=
  (modPort_within p fun ps h => Nat.le_trans (length_endFetch whole ps) h).answers

/-! ### The Program Store -/

theorem execOverrideCountExpiry_answers {z : Zone} : Answers s (execOverrideCountExpiry z s) :=
  (Within.ite (F := completeFoot) (fun _ => secondAt_within.mono) fun _ =>
    .ite (fun _ => completeStore_within) fun _ => .refl).answers

/-! ### The room bus as receiver -/

theorem execReceivedByte_answers {b : Byte} : Answers s (execReceivedByte b s) := by
  unfold execReceivedByte
  split
  · next f _ onLine =>
    split
    · exact (reservedByte_within onLine).answers
    · exact (foreignByte_within onLine).answers
    · exact setAck_within.answers
    · exact .refl
  · exact .refl

theorem execFrameReceived_answers {crc : Byte} : Answers s (execFrameReceived crc s) := by
  unfold execFrameReceived
  split
  · next f _ onLine => exact .ite fun reserved => crcByteReceived_within onLine reserved
  · exact .refl

theorem execBusWiresHigh_answers : Answers s (execBusWiresHigh s) := by
  refine .ite (F := { bus := true }) fun _ => ?_
  apply bus_within_rest <;> rfl

theorem execSync_answers {good : Bool} : Answers s (execSync good s) := by
  unfold execSync
  split
  · exact (Within.ite (fun _ => .refl) fun _ => beginSync_within.afterRunTo).answers
  · exact abandonRecovery_within.afterRunTo.answers
  · exact .refl

theorem execSyncComplete_answers : Answers s (execSyncComplete s) := by
  refine .ite (F := { bus := true }) fun _ => refreshReady_within.after (enterGap_within.after ?_)
  apply bus_within_rest <;> rfl

/-! ### The room bus as sender -/

theorem execAttemptStart_answers : Answers s (execAttemptStart s) := by
  unfold execAttemptStart
  split
  · exact .ite fun _ => beginAttempt_within
  · exact .refl

theorem execDeferralTimeout_answers : Answers s (execDeferralTimeout s) := by
  unfold execDeferralTimeout
  split
  · exact .ite fun _ => failDeferred_within.afterRunTo
  · exact .refl

theorem execArbitrationLoss_answers {n : Nat} : Answers s (execArbitrationLoss n s) := by
  unfold execArbitrationLoss
  split
  · exact loseArbitration_within.answers
  · exact .refl

theorem execAttemptSuccess_answers : Answers s (execAttemptSuccess s) := by
  unfold execAttemptSuccess
  split
  · exact succeed_within.answers
  · exact .refl

theorem execAttemptFailure_answers : Answers s (execAttemptFailure s) := by
  unfold execAttemptFailure
  split
  · exact (Within.ite (F := busFoot) (fun _ => .refl) fun _ => failAttempt_within.after enterGap_within.mono).answers
  · exact .refl

theorem outbound_endBackoff (c : Source) (b : RoomBus) :
    (b.endBackoff c).outbound = b.outbound ∧ (b.endBackoff c).rx = b.rx := by
  cases c <;> exact ⟨rfl, rfl⟩

theorem execBackoffEnd_answers {c : Source} : Answers s (execBackoffEnd c s) := by
  unfold execBackoffEnd
  split
  · next t _ _ =>
    obtain ⟨sameQueue, sameFrame⟩ := outbound_endBackoff c (runTo t s).bus
    exact (refreshReady_within.after (bus_within_rest sameQueue sameFrame)).afterRunTo.answers
  · exact .refl

/-! ### The records of the receive queue -/

theorem execTempRecord_answers : Answers s (execTempRecord s) := by
  unfold execTempRecord
  split
  · exact (removeHead_within.after (F := wholeFoot) judgeTemp_within.mono).answers
  · exact .refl

theorem execJoinRecord_answers : Answers s (execJoinRecord s) := by
  unfold execJoinRecord
  split
  · exact (removeHead_within.after judgeJoin_within).answers
  · exact .refl

theorem execBoostRecord_answers : Answers s (execBoostRecord s) := by
  unfold execBoostRecord
  split
  · exact judgeBoost_within.answers
  · exact .refl

theorem execBoostCancelRecord_answers : Answers s (execBoostCancelRecord s) := by
  unfold execBoostCancelRecord
  split
  · exact judgeBoostCancel_within.answers
  · exact .refl

/-! ### The valve channels -/

theorem execMovementCompletion_answers {c : Channel} : Answers s (execMovementCompletion c s) := by
  unfold execMovementCompletion
  split
  · exact endMovement_within.afterRunTo.answers
  · exact .refl

theorem execSeekClosedTimeout_answers {c : Channel} : Answers s (execSeekClosedTimeout c s) := by
  unfold execSeekClosedTimeout
  split
  · exact seekTimedOut_within.afterRunTo.answers
  · exact .refl

theorem execDwellEnd_answers {c : Channel} : Answers s (execDwellEnd c s) := by
  unfold execDwellEnd
  split
  · exact dwellOver_within.afterRunTo.answers
  · exact .refl

theorem execStall_answers {i : Slot} : Answers s (execStall i s) := by
  unfold execStall
  split
  · exact stallOf_within.answers
  · exact .refl

/-! ### The burner link and the Firing Controller -/

theorem execStatus_answers {f : StatusBytes} : Answers s (execStatus f s) := by
  unfold execStatus
  dsimp only
  split
  · exact .ite fun _ => judgeComplete_within.after (F := wholeFoot) afterQuiet_within.mono
  · exact .refl

theorem execMiss_answers : Answers s (execMiss s) := by
  unfold execMiss
  split
  · exact takeMiss_within.afterRunTo.answers
  · exact .refl

theorem execRunoutTimerExpiry_answers : Answers s (execRunoutTimerExpiry s) := by
  unfold execRunoutTimerExpiry
  split
  · exact endRunout_within.afterRunTo.answers
  · exact .refl

theorem execLockoutPumpTimerExpiry_answers : Answers s (execLockoutPumpTimerExpiry s) := by
  unfold execLockoutPumpTimerExpiry
  split
  · exact (modFiring_within _).afterRunTo.answers
  · exact .refl

/-! ### Every command -/

theorem exec_answers (i : Instr) (s : State) : Answers s (exec i s) := by
  cases i
  case deviceReset => exact execDeviceReset_answers
  case voidTransaction => exact execVoidTransaction_answers
  case badFrame => exact execBadFrame_answers
  case fetch => exact execFetch_answers
  case fetchTransactionEnd => exact execFetchTransactionEnd_answers
  case storeRequestComplete => exact completeStore_within.answers
  case servedRecomputation => exact .ite fun _ => recomputeServed_within
  case secondEvent => exact secondAt_within.answers
  case minuteEvent => exact .ite fun _ => secondAt_within
  case claimLapse => exact .ite fun _ => secondAt_within
  case unitFreshnessAging => exact .ite fun _ => secondAt_within
  case overrideCountExpiry => exact execOverrideCountExpiry_answers
  case loopEvent => exact loopAt_within.answers
  case zoneEvent => exact .ite fun _ => zoneEventOf_within
  case sampleEvent => exact sampleAt_within.answers
  case windowDelayExpiry => exact .ite fun _ => sampleAt_within
  case busFree => exact .ite fun _ => setLine_within.afterRunTo
  case destReservation => exact .ite fun _ => destEnded_within
  case frameReceived => exact execFrameReceived_answers
  case shortFrame => exact .ite fun _ => afterEnd_within.after (F := lineFoot) rewind_within.mono
  case busError => exact .ite fun _ => busErrorSeen_within
  case stuckBus => exact .ite fun _ => becomeStuck_within
  case busWiresHigh => exact execBusWiresHigh_answers
  case recoveryInterrupted => exact .ite fun _ => abandonRecovery_within
  case sync => exact execSync_answers
  case syncComplete => exact execSyncComplete_answers
  case attemptStart => exact execAttemptStart_answers
  case deferralTimeout => exact execDeferralTimeout_answers
  case arbitrationLoss => exact execArbitrationLoss_answers
  case attemptSuccess => exact execAttemptSuccess_answers
  case attemptFailure => exact execAttemptFailure_answers
  case backoffEnd => exact execBackoffEnd_answers
  case tempRecord => exact execTempRecord_answers
  case joinRecord => exact execJoinRecord_answers
  case boostRecord => exact execBoostRecord_answers
  case boostCancelRecord => exact execBoostCancelRecord_answers
  case movementCompletion => exact execMovementCompletion_answers
  case seekClosedTimeout => exact execSeekClosedTimeout_answers
  case dwellEnd => exact execDwellEnd_answers
  case stall => exact execStall_answers
  case exchange => exact .ite fun _ => startExchange_within.afterRunTo
  case byteGapTimeout => exact afterQuiet_within.answers
  case status => exact execStatus_answers
  case miss => exact execMiss_answers
  case runoutTimerExpiry => exact execRunoutTimerExpiry_answers
  case minOffElapsed => exact .ite fun _ => enterOff_within.afterRunTo
  case lockoutPumpTimerExpiry => exact execLockoutPumpTimerExpiry_answers
  case startSeen => exact .ite fun _ => beginFrame_within
  case stopSeen => exact .ite fun _ => enterGap_within
  case receivedByte => exact execReceivedByte_answers
  case demandSent => exact .ite fun _ => modLink_within _
  case frameAbandoned => exact linkByte_within.answers
  case discardedFrame => exact .ite fun _ => judgeComplete_within.after (F := wholeFoot) afterQuiet_within.mono
  -- The commands left are the 29 requests.
  all_goals exact takeRequest_within.answers

/-- What a command leads to lies within its footprint, and keeps what the shared operations keep. -/
theorem exec_within {i : Instr} (next : exec i s = .next t) : Within wholeFoot s t := (exec_answers i s).within next

/-! ### R58 -/

/-- Settles O16: the table by its rows (resolve_of_window, resolve_of_off, resolve_of_asked), the zone record by
settle_resolvedAt, and the bound because every command is made of operations that keep it. -/
theorem resolutionFollowsItsTable : Obligations.ResolutionFollowsItsTable := by
  unfold Obligations.ResolutionFollowsItsTable
  refine ⟨fun mode base floor max st ordered => ⟨?_, ?_, ?_, ?_⟩, settle_resolvedAt, fun i s t sound next => ?_⟩
  · exact resolve_of_window ordered
  · exact resolve_of_off ordered
  · intro noWindow notOff
    rw [resolve_of_asked noWindow notOff]
    exact ⟨brought_of_lt_floor, brought_of_max_lt ordered, brought_of_between⟩
  · exact resolve_within_limits mode base st floor max ordered
  · exact (exec_within next).keepsTargets sound

end Sys2Proof.Machine
end

section
/-! SUPPORT. RELEASE (R65): what it answers to the claim's holder, to any other port and to a target out of range,
whenever it is granted, and with that the command at a ready port. -/

namespace Sys2Proof.Machine

variable {s : State} {p : Port} {r : HostReq} {b : Byte} {c : ClaimIx}

/-! ### Who holds a claim -/

theorem holds_iff_heldBy : s.holds p c = true ↔ s.heldBy c p := by
  unfold State.holds State.heldBy
  cases s.store.claims[c] with
  | none => simp
  | some h => simp

theorem claim?_of_toNat_eq (target : b.toNat = c.val) : claim? b = some c := fin?_of_lt b c target

theorem claim?_of_le (outOfRange : 17 ≤ b.toNat) : claim? b = none := fin?_of_le b outOfRange

/-! ### The claims across the taking and the grant of a request -/

@[simp] theorem store_atGrant_inFlight : (atGrant p (s.inFlight p r)).store = s.store := by
  cases p <;> rfl

theorem heldBy_atGrant_inFlight : (atGrant p (s.inFlight p r)).heldBy c p ↔ s.heldBy c p := by
  simp only [State.heldBy, store_atGrant_inFlight]

theorem setClaim_atGrant_inFlight (h : Option Held) :
    (atGrant p (s.inFlight p r)).setClaim c h = atGrant p ((s.setClaim c h).inFlight p r) := by
  cases p <;> rfl

/-! ### RELEASE -/

theorem carryOut_release_of_holder (target : b.toNat = c.val) (holder : s.heldBy c p) :
    carryOut (.host p (.release b)) s = (s.setClaim c none, .reply .ok [] none) := by
  rw [carryOut_release, storeRelease, claim?_of_toNat_eq target, inRange, if_pos (holds_iff_heldBy.mpr holder), answer]

theorem carryOut_release_of_not_holder (target : b.toNat = c.val) (notHolder : ¬ s.heldBy c p) :
    carryOut (.host p (.release b)) s = (s, .reply .noClaim [] none) := by
  rw [carryOut_release, storeRelease, claim?_of_toNat_eq target, inRange,
    if_neg (fun holds => notHolder (holds_iff_heldBy.mp holds)), answer]

theorem carryOut_release_of_outOfRange (outOfRange : 17 ≤ b.toNat) :
    carryOut (.host p (.release b)) s = (s, .reply .range [] none) := by
  rw [carryOut_release, storeRelease, claim?_of_le outOfRange, inRange, answer]

theorem exec_release_of_holder (ready : s.ready p) (target : b.toNat = c.val) (holder : s.heldBy c p) :
    exec (.release p b) s = .next ((s.setClaim c none).granted p (.release b) .ok [] none) := by
  have carried := carryOut_release_of_holder target (heldBy_atGrant_inFlight (r := .release b).mpr holder)
  rw [setClaim_atGrant_inFlight] at carried
  exact exec_requestCommand_granted ready rfl rfl carried

theorem exec_release_of_not_holder (ready : s.ready p) (target : b.toNat = c.val) (notHolder : ¬ s.heldBy c p) :
    exec (.release p b) s = .next (s.granted p (.release b) .noClaim [] none) :=
  exec_requestCommand_granted ready rfl rfl
    (carryOut_release_of_not_holder target (by rwa [heldBy_atGrant_inFlight]))

theorem exec_release_of_outOfRange (ready : s.ready p) (outOfRange : 17 ≤ b.toNat) :
    exec (.release p b) s = .next (s.granted p (.release b) .range [] none) :=
  exec_requestCommand_granted ready rfl rfl (carryOut_release_of_outOfRange outOfRange)

/-- Settles O13: RELEASE freezes no claim, so that a ready port's is granted at once, and carried out it splits on
whether its target is a claim and the port holds it. -/
theorem releaseGivesUpAClaim : Obligations.ReleaseGivesUpAClaim := by
  unfold Obligations.ReleaseGivesUpAClaim
  refine ⟨fun p b s ready => ⟨fun c target => ⟨?_, ?_⟩, ?_⟩, fun p b s => ⟨fun c target => ⟨?_, ?_⟩, ?_⟩⟩
  · exact exec_release_of_holder ready target
  · exact exec_release_of_not_holder ready target
  · exact exec_release_of_outOfRange ready
  · exact carryOut_release_of_holder target
  · exact carryOut_release_of_not_holder target
  · exact carryOut_release_of_outOfRange

end Sys2Proof.Machine
end
